-- ==== Sys2Proof/Word.lean ====
section
/-! DEFINITION. The block's words: 32-bit vectors, bytes, register indices (R6, R10, R11). -/

namespace Sys2Proof

/-- Every register, stage buffer, immediate and the pc is a 32-bit vector (R11). Its `toNat` is
the spec's unsigned reading `u(v)`, its `toInt` the signed reading `s(v)`. -/
abbrev Word := BitVec 32

/-- The unit of the data and stack spaces (R60). -/
abbrev Byte := BitVec 8

/-- A 5-bit register index field of an instruction word (R20, R91). The sentinel NONE (R6, R99)
is `none` in `Option Reg`, so no index of the type is ever the sentinel. -/
abbrev Reg := BitVec 5

end Sys2Proof
end

