-- ==== Sys2Proof/Config.lean ====
section
/-! DEFINITION. What an implementation fixes: the parameters of R7 (open ones are fields of `Params`,
held by the machine since reset; decided ones are constants) and the reference configuration. -/

namespace Sys2Proof

/-- The parameters DOC leaves open (R7; 92_eei_decisions.md section 2) that are single values.
They are sampled at reset and nothing writes them afterwards, so a statement over every state is
a statement over every choice of them (DESIGN CHOICE, safe; log entry 12). The images `IMEM` and `DMEM_INIT` are the other open
parameters: they are arguments of `State.resetWith`. -/
structure Params where
  /-- `PC_RESET`, the entry point (R7, R44). -/
  pcReset : Word
  /-- `SP_INIT`, the loader's seed of x2 (R7, R44). -/
  spInit : Word
  /-- `GP_INIT`, the loader's seed of x3 (R7, R44). -/
  gpInit : Word
  /-- `DATA_LO`, first byte address of the data window (R7, R64). -/
  dataLo : Word
  /-- `DATA_HI`, last byte address of the data window (R7, R64). -/
  dataHi : Word
  /-- `STACK_LO`, first byte address of the stack window (R7, R64). -/
  stackLo : Word
  /-- `STACK_HI`, last byte address of the stack window (R7, R64). -/
  stackHi : Word
  /-- `TERM_ADDR`, the termination address, held in a register after reset (R46, R62). -/
  termAddr : Word
  /-- `cfg_pipelined`: true = pipelined mode (R7, R14, R37). -/
  cfgPipelined : Bool
  /-- `cfg_forward`, the raw flag (R7, R37); rules read only `fwd_on` (R9). -/
  cfgForward : Bool
  /-- `cfg_predict`, the raw flag (R7, R37); rules read only `pred_on` (R9). -/
  cfgPredict : Bool
  /-- `DIV_OVERFLOW_Q`, the quotient of -2^31 by -1 (93_implementation_defined.md U2). DESIGN CHOICE, safe (log entry 5). -/
  divOverflowQ : Word
  /-- `DIV_OVERFLOW_R`, the remainder of -2^31 by -1 (93_implementation_defined.md U2). DESIGN CHOICE, safe (log entry 5). -/
  divOverflowR : Word
  deriving DecidableEq, Repr

/-- The reference configuration of R7, with no program (`TERM_ADDR` is then `PC_RESET`, as in
scenario T11) and the three flags 0. DESIGN CHOICE (log entries 1 and 2), unsafe: a statement
that rests on these numbers holds of this configuration only. -/
def Params.reference : Params where
  pcReset := 0x00000000
  spInit := 0x7FFFFFDC
  gpInit := 0x10000000
  dataLo := 0x10000000
  dataHi := 0x100FFFFF
  stackLo := 0x7FF00000
  stackHi := 0x7FFFFFFF
  termAddr := 0x00000000
  cfgPipelined := false
  cfgForward := false
  cfgPredict := false
  divOverflowQ := 0x80000000
  divOverflowR := 0x00000000

/-- The constraints on the parameters (R8): non-empty windows, the data window below the stack
window. No rule of the machine reads it; a claim may take it as a premise. -/
abbrev Params.Legal (p : Params) : Prop :=
  p.dataLo.toNat ≤ p.dataHi.toNat ∧ p.stackLo.toNat ≤ p.stackHi.toNat ∧
    p.dataHi.toNat < p.stackLo.toNat

/-- `MEM_DEFAULT_BYTE` = 0x00, what an in-window byte that nothing has written reads as (R63,
decision D17). DESIGN CHOICE of the spec (log entry 3), unsafe. -/
def Config.memDefaultByte : Byte := 0x00

/-- `PRED_INIT` = 0, not taken: the reset value of the sticky prediction bit (R280, decision D36). -/
def Config.predInit : Bool := false

end Sys2Proof
end

