-- ==== Sys2Proof/Syntax.lean ====
section
/-! DEFINITION. The instruction set: the 31 rows of spec/opcode_table.json, one constructor each (R1, R102). -/

namespace Sys2Proof

/-- The six instruction formats (R6, R92 to R97). -/
inductive Fmt where
  | R | I | S | B | U | UJ
  deriving DecidableEq, Repr

/-- A decoded instruction. The `imm` operand is the record's 32-bit sign-extended immediate (R31,
R98): not shifted for lui and auipc (R96), a byte offset for branches and jal (R95, R97). -/
inductive Instr where
  | add (rd rs1 rs2 : Reg)
  | sub (rd rs1 rs2 : Reg)
  | sll (rd rs1 rs2 : Reg)
  | slt (rd rs1 rs2 : Reg)
  | xor (rd rs1 rs2 : Reg)
  | srl (rd rs1 rs2 : Reg)
  | sra (rd rs1 rs2 : Reg)
  | or (rd rs1 rs2 : Reg)
  | and (rd rs1 rs2 : Reg)
  | mul (rd rs1 rs2 : Reg)
  | div (rd rs1 rs2 : Reg)
  | rem (rd rs1 rs2 : Reg)
  | addi (rd rs1 : Reg) (imm : Word)
  | andi (rd rs1 : Reg) (imm : Word)
  | ori (rd rs1 : Reg) (imm : Word)
  | lb (rd rs1 : Reg) (imm : Word)
  | lh (rd rs1 : Reg) (imm : Word)
  | lw (rd rs1 : Reg) (imm : Word)
  | ld (rd rs1 : Reg) (imm : Word)
  | jalr (rd rs1 : Reg) (imm : Word)
  | sb (rs1 rs2 : Reg) (imm : Word)
  | sh (rs1 rs2 : Reg) (imm : Word)
  | sw (rs1 rs2 : Reg) (imm : Word)
  | sd (rs1 rs2 : Reg) (imm : Word)
  | beq (rs1 rs2 : Reg) (imm : Word)
  | bne (rs1 rs2 : Reg) (imm : Word)
  | blt (rs1 rs2 : Reg) (imm : Word)
  | bge (rs1 rs2 : Reg) (imm : Word)
  | lui (rd : Reg) (imm : Word)
  | auipc (rd : Reg) (imm : Word)
  | jal (rd : Reg) (imm : Word)
  deriving DecidableEq, Repr

end Sys2Proof
end

