-- ==== Sys2Proof/WellFormed.lean ====
section
/-! DEFINITION. Which instructions are representable: the immediate ranges of the formats (R93 to R98, R108). -/

namespace Sys2Proof

/-- The signed N-bit range: the immediate's signed reading lies in -2^(N-1) .. 2^(N-1) - 1. -/
abbrev fitsSigned (n : Nat) (imm : Word) : Prop :=
  -(2 ^ (n - 1) : Int) ≤ imm.toInt ∧ imm.toInt < (2 ^ (n - 1) : Int)

/-- Bit 0 of a branch or jal offset is an implicit 0 (R95, R97). -/
abbrev isEven (imm : Word) : Prop := imm.toNat % 2 = 0

/-- The check of a representable field combination (R108): registers are 0..31 by their type, the
immediate is in the format's range, and even for B and UJ. -/
def Instr.wellFormed (i : Instr) : Bool :=
  match i with
  | .add _ _ _ | .sub _ _ _ | .sll _ _ _ | .slt _ _ _ | .xor _ _ _ | .srl _ _ _ => true
  | .sra _ _ _ | .or _ _ _ | .and _ _ _ | .mul _ _ _ | .div _ _ _ | .rem _ _ _ => true
  | .addi _ _ imm | .andi _ _ imm | .ori _ _ imm => decide (fitsSigned 12 imm)
  | .lb _ _ imm | .lh _ _ imm | .lw _ _ imm | .ld _ _ imm => decide (fitsSigned 12 imm)
  | .jalr _ _ imm => decide (fitsSigned 12 imm)
  | .sb _ _ imm | .sh _ _ imm | .sw _ _ imm | .sd _ _ imm => decide (fitsSigned 12 imm)
  | .beq _ _ imm | .bne _ _ imm | .blt _ _ imm | .bge _ _ imm =>
    decide (fitsSigned 13 imm ∧ isEven imm)
  | .lui _ imm | .auipc _ imm => decide (fitsSigned 20 imm)
  | .jal _ imm => decide (fitsSigned 21 imm ∧ isEven imm)

/-- `i` is a representable field combination (R108). -/
abbrev Instr.WellFormed (i : Instr) : Prop := i.wellFormed = true

end Sys2Proof
end

