-- ==== Sys2Proof/Decode.lean ====
section
/-! DEFINITION. Fields, immediates, the opcode map, `decode` (total, refusing by name), the record's
fields as functions of the instruction, and `encode` (30_encoding.md, 10_state.md R31). -/

namespace Sys2Proof

/-! ## The common fields (R91) -/

/-- `w[6:0]`. -/
def opcodeField (w : Word) : BitVec 7 := w.extractLsb' 0 7
/-- `w[11:7]`. -/
def rdField (w : Word) : Reg := w.extractLsb' 7 5
/-- `w[14:12]`. -/
def funct3Field (w : Word) : BitVec 3 := w.extractLsb' 12 3
/-- `w[19:15]`. -/
def rs1Field (w : Word) : Reg := w.extractLsb' 15 5
/-- `w[24:20]`. -/
def rs2Field (w : Word) : Reg := w.extractLsb' 20 5
/-- `w[31:25]`. -/
def funct7Field (w : Word) : BitVec 7 := w.extractLsb' 25 7

/-! ## The immediates (R93 to R98): all sign-extended -/

/-- I format: `sext_12(w[31:20])` (R93). -/
def immI (w : Word) : Word := (w.extractLsb' 20 12).signExtend 32
/-- S format: `sext_12` of w[31:25] over w[11:7] (R94). -/
def immS (w : Word) : Word :=
  ((w.extractLsb' 25 7 ++ w.extractLsb' 7 5 : BitVec 12)).signExtend 32
/-- B format: `sext_13` of w[31], w[7], w[30:25], w[11:8] and a 0 (R95). -/
def immB (w : Word) : Word :=
  ((w.extractLsb' 31 1 ++ w.extractLsb' 7 1 ++ w.extractLsb' 25 6 ++ w.extractLsb' 8 4 ++
    0#1 : BitVec 13)).signExtend 32
/-- U format: `sext_20(w[31:12])`, not shifted (R96). -/
def immU (w : Word) : Word := (w.extractLsb' 12 20).signExtend 32
/-- UJ format: `sext_21` of w[31], w[19:12], w[20], w[30:21] and a 0 (R97). -/
def immUJ (w : Word) : Word :=
  ((w.extractLsb' 31 1 ++ w.extractLsb' 12 8 ++ w.extractLsb' 20 1 ++ w.extractLsb' 21 10 ++
    0#1 : BitVec 21)).signExtend 32

/-! ## The nine opcodes (R101) -/

/-- Register-register ALU. -/
def opR : BitVec 7 := 0b0110011#7
/-- Register-immediate ALU. -/
def opI : BitVec 7 := 0b0010011#7
/-- Loads. -/
def opLoad : BitVec 7 := 0b0000011#7
/-- jalr. -/
def opJalr : BitVec 7 := 0b1100111#7
/-- Stores. -/
def opStore : BitVec 7 := 0b0100011#7
/-- Conditional branches. -/
def opBranch : BitVec 7 := 0b1100011#7
/-- lui. -/
def opLui : BitVec 7 := 0b0110111#7
/-- auipc. -/
def opAuipc : BitVec 7 := 0b0010111#7
/-- jal. -/
def opJal : BitVec 7 := 0b1101111#7

/-! ## The decoder (R100) -/

/-- What the decoder answers: an instruction, or one of the two refusals (R103, R104), each by name. -/
inductive Decoded where
  /-- The word spells this instruction (R102). -/
  | ok (i : Instr)
  /-- `w[6:0]` is not one of the nine opcodes (R103). -/
  | unknownOpcode
  /-- A known opcode with a function code outside R102 (R104). -/
  | unknownFunct
  deriving DecidableEq, Repr

/-- R format: by funct7 and funct3 (R92, R102). -/
def decodeR (w : Word) : Decoded :=
  let f7 := funct7Field w
  let f3 := funct3Field w
  let rd := rdField w
  let rs1 := rs1Field w
  let rs2 := rs2Field w
  if f7 = 0b0000000#7 then
    if f3 = 0b000#3 then .ok (.add rd rs1 rs2)
    else if f3 = 0b001#3 then .ok (.sll rd rs1 rs2)
    else if f3 = 0b010#3 then .ok (.slt rd rs1 rs2)
    else if f3 = 0b100#3 then .ok (.xor rd rs1 rs2)
    else if f3 = 0b101#3 then .ok (.srl rd rs1 rs2)
    else if f3 = 0b110#3 then .ok (.or rd rs1 rs2)
    else if f3 = 0b111#3 then .ok (.and rd rs1 rs2)
    else .unknownFunct
  else if f7 = 0b0100000#7 then
    if f3 = 0b000#3 then .ok (.sub rd rs1 rs2)
    else if f3 = 0b101#3 then .ok (.sra rd rs1 rs2)
    else .unknownFunct
  else if f7 = 0b0000001#7 then
    if f3 = 0b000#3 then .ok (.mul rd rs1 rs2)
    else if f3 = 0b100#3 then .ok (.div rd rs1 rs2)
    else if f3 = 0b110#3 then .ok (.rem rd rs1 rs2)
    else .unknownFunct
  else .unknownFunct

/-- Register-immediate ALU: addi, ori, andi by funct3 (R93, R102). -/
def decodeI (w : Word) : Decoded :=
  let f3 := funct3Field w
  if f3 = 0b000#3 then .ok (.addi (rdField w) (rs1Field w) (immI w))
  else if f3 = 0b110#3 then .ok (.ori (rdField w) (rs1Field w) (immI w))
  else if f3 = 0b111#3 then .ok (.andi (rdField w) (rs1Field w) (immI w))
  else .unknownFunct

/-- Loads by funct3 (R93, R102). -/
def decodeLoad (w : Word) : Decoded :=
  let f3 := funct3Field w
  if f3 = 0b000#3 then .ok (.lb (rdField w) (rs1Field w) (immI w))
  else if f3 = 0b001#3 then .ok (.lh (rdField w) (rs1Field w) (immI w))
  else if f3 = 0b010#3 then .ok (.lw (rdField w) (rs1Field w) (immI w))
  else if f3 = 0b011#3 then .ok (.ld (rdField w) (rs1Field w) (immI w))
  else .unknownFunct

/-- jalr: funct3 000 only (R93, R102, R104). -/
def decodeJalr (w : Word) : Decoded :=
  if funct3Field w = 0b000#3 then .ok (.jalr (rdField w) (rs1Field w) (immI w))
  else .unknownFunct

/-- Stores by funct3 (R94, R102). -/
def decodeStore (w : Word) : Decoded :=
  let f3 := funct3Field w
  if f3 = 0b000#3 then .ok (.sb (rs1Field w) (rs2Field w) (immS w))
  else if f3 = 0b001#3 then .ok (.sh (rs1Field w) (rs2Field w) (immS w))
  else if f3 = 0b010#3 then .ok (.sw (rs1Field w) (rs2Field w) (immS w))
  else if f3 = 0b011#3 then .ok (.sd (rs1Field w) (rs2Field w) (immS w))
  else .unknownFunct

/-- Conditional branches by funct3 (R95, R102). -/
def decodeBranch (w : Word) : Decoded :=
  let f3 := funct3Field w
  if f3 = 0b000#3 then .ok (.beq (rs1Field w) (rs2Field w) (immB w))
  else if f3 = 0b001#3 then .ok (.bne (rs1Field w) (rs2Field w) (immB w))
  else if f3 = 0b100#3 then .ok (.blt (rs1Field w) (rs2Field w) (immB w))
  else if f3 = 0b101#3 then .ok (.bge (rs1Field w) (rs2Field w) (immB w))
  else .unknownFunct

/-- The decoder: a pure, total function of the word (R90, R100). -/
def decode (w : Word) : Decoded :=
  let op := opcodeField w
  if op = opR then decodeR w
  else if op = opI then decodeI w
  else if op = opLoad then decodeLoad w
  else if op = opJalr then decodeJalr w
  else if op = opStore then decodeStore w
  else if op = opBranch then decodeBranch w
  else if op = opLui then .ok (.lui (rdField w) (immU w))
  else if op = opAuipc then .ok (.auipc (rdField w) (immU w))
  else if op = opJal then .ok (.jal (rdField w) (immUJ w))
  else .unknownOpcode

/-- The instruction the decoder reads from the table's `nbits`-bit number `w`. Every instruction is
one 32-bit word (R90) and a fetched word is atomic, so there is no byte order to lay out (R61). -/
def decodeTableWord (nbits w : Nat) : Option Instr :=
  match decode (BitVec.ofNat 32 (w % 2 ^ nbits)) with
  | .ok i => some i
  | .unknownOpcode => none
  | .unknownFunct => none

/-! ## The record's fields (R31, R99, R107), each a function of the instruction -/

/-- `fmt`. -/
def Instr.fmt (i : Instr) : Fmt :=
  match i with
  | .add _ _ _ | .sub _ _ _ | .sll _ _ _ | .slt _ _ _ | .xor _ _ _ | .srl _ _ _ => .R
  | .sra _ _ _ | .or _ _ _ | .and _ _ _ | .mul _ _ _ | .div _ _ _ | .rem _ _ _ => .R
  | .addi _ _ _ | .andi _ _ _ | .ori _ _ _ => .I
  | .lb _ _ _ | .lh _ _ _ | .lw _ _ _ | .ld _ _ _ => .I
  | .jalr _ _ _ => .I
  | .sb _ _ _ | .sh _ _ _ | .sw _ _ _ | .sd _ _ _ => .S
  | .beq _ _ _ | .bne _ _ _ | .blt _ _ _ | .bge _ _ _ => .B
  | .lui _ _ | .auipc _ _ => .U
  | .jal _ _ => .UJ

/-- `opcode`: bits 6:0 of the word (R101). -/
def Instr.opcode (i : Instr) : BitVec 7 :=
  match i with
  | .add _ _ _ | .sub _ _ _ | .sll _ _ _ | .slt _ _ _ | .xor _ _ _ | .srl _ _ _ => opR
  | .sra _ _ _ | .or _ _ _ | .and _ _ _ | .mul _ _ _ | .div _ _ _ | .rem _ _ _ => opR
  | .addi _ _ _ | .andi _ _ _ | .ori _ _ _ => opI
  | .lb _ _ _ | .lh _ _ _ | .lw _ _ _ | .ld _ _ _ => opLoad
  | .jalr _ _ _ => opJalr
  | .sb _ _ _ | .sh _ _ _ | .sw _ _ _ | .sd _ _ _ => opStore
  | .beq _ _ _ | .bne _ _ _ | .blt _ _ _ | .bge _ _ _ => opBranch
  | .lui _ _ => opLui
  | .auipc _ _ => opAuipc
  | .jal _ _ => opJal

/-- `funct3`: bits 14:12, absent for U and UJ (R102). -/
def Instr.funct3 (i : Instr) : Option (BitVec 3) :=
  match i with
  | .add _ _ _ | .sub _ _ _ | .mul _ _ _ => some 0b000#3
  | .sll _ _ _ => some 0b001#3
  | .slt _ _ _ => some 0b010#3
  | .xor _ _ _ | .div _ _ _ => some 0b100#3
  | .srl _ _ _ | .sra _ _ _ => some 0b101#3
  | .or _ _ _ | .rem _ _ _ => some 0b110#3
  | .and _ _ _ => some 0b111#3
  | .addi _ _ _ => some 0b000#3
  | .ori _ _ _ => some 0b110#3
  | .andi _ _ _ => some 0b111#3
  | .lb _ _ _ | .sb _ _ _ => some 0b000#3
  | .lh _ _ _ | .sh _ _ _ => some 0b001#3
  | .lw _ _ _ | .sw _ _ _ => some 0b010#3
  | .ld _ _ _ | .sd _ _ _ => some 0b011#3
  | .jalr _ _ _ => some 0b000#3
  | .beq _ _ _ => some 0b000#3
  | .bne _ _ _ => some 0b001#3
  | .blt _ _ _ => some 0b100#3
  | .bge _ _ _ => some 0b101#3
  | .lui _ _ | .auipc _ _ | .jal _ _ => none

/-- `funct7`: bits 31:25, absent for all but R (R102). -/
def Instr.funct7 (i : Instr) : Option (BitVec 7) :=
  match i with
  | .add _ _ _ | .sll _ _ _ | .slt _ _ _ | .xor _ _ _ | .srl _ _ _ => some 0b0000000#7
  | .or _ _ _ | .and _ _ _ => some 0b0000000#7
  | .sub _ _ _ | .sra _ _ _ => some 0b0100000#7
  | .mul _ _ _ | .div _ _ _ | .rem _ _ _ => some 0b0000001#7
  | .addi _ _ _ | .andi _ _ _ | .ori _ _ _ => none
  | .lb _ _ _ | .lh _ _ _ | .lw _ _ _ | .ld _ _ _ | .jalr _ _ _ => none
  | .sb _ _ _ | .sh _ _ _ | .sw _ _ _ | .sd _ _ _ => none
  | .beq _ _ _ | .bne _ _ _ | .blt _ _ _ | .bge _ _ _ => none
  | .lui _ _ | .auipc _ _ | .jal _ _ => none

/-- `rd`, NONE for S and B (R99). -/
def Instr.rd (i : Instr) : Option Reg :=
  match i with
  | .add rd _ _ | .sub rd _ _ | .sll rd _ _ | .slt rd _ _ | .xor rd _ _ | .srl rd _ _ => some rd
  | .sra rd _ _ | .or rd _ _ | .and rd _ _ | .mul rd _ _ | .div rd _ _ | .rem rd _ _ => some rd
  | .addi rd _ _ | .andi rd _ _ | .ori rd _ _ => some rd
  | .lb rd _ _ | .lh rd _ _ | .lw rd _ _ | .ld rd _ _ => some rd
  | .jalr rd _ _ => some rd
  | .sb _ _ _ | .sh _ _ _ | .sw _ _ _ | .sd _ _ _ => none
  | .beq _ _ _ | .bne _ _ _ | .blt _ _ _ | .bge _ _ _ => none
  | .lui rd _ | .auipc rd _ => some rd
  | .jal rd _ => some rd

/-- `rs1`, NONE for U and UJ (R99). -/
def Instr.rs1 (i : Instr) : Option Reg :=
  match i with
  | .add _ a _ | .sub _ a _ | .sll _ a _ | .slt _ a _ | .xor _ a _ | .srl _ a _ => some a
  | .sra _ a _ | .or _ a _ | .and _ a _ | .mul _ a _ | .div _ a _ | .rem _ a _ => some a
  | .addi _ a _ | .andi _ a _ | .ori _ a _ => some a
  | .lb _ a _ | .lh _ a _ | .lw _ a _ | .ld _ a _ => some a
  | .jalr _ a _ => some a
  | .sb a _ _ | .sh a _ _ | .sw a _ _ | .sd a _ _ => some a
  | .beq a _ _ | .bne a _ _ | .blt a _ _ | .bge a _ _ => some a
  | .lui _ _ | .auipc _ _ => none
  | .jal _ _ => none

/-- `rs2`, NONE for I, U and UJ (R99). -/
def Instr.rs2 (i : Instr) : Option Reg :=
  match i with
  | .add _ _ b | .sub _ _ b | .sll _ _ b | .slt _ _ b | .xor _ _ b | .srl _ _ b => some b
  | .sra _ _ b | .or _ _ b | .and _ _ b | .mul _ _ b | .div _ _ b | .rem _ _ b => some b
  | .addi _ _ _ | .andi _ _ _ | .ori _ _ _ => none
  | .lb _ _ _ | .lh _ _ _ | .lw _ _ _ | .ld _ _ _ => none
  | .jalr _ _ _ => none
  | .sb _ b _ | .sh _ b _ | .sw _ b _ | .sd _ b _ => some b
  | .beq _ b _ | .bne _ b _ | .blt _ b _ | .bge _ b _ => some b
  | .lui _ _ | .auipc _ _ => none
  | .jal _ _ => none

/-- `imm`: the sign-extended immediate, 0 for R (R31, R92). -/
def Instr.imm (i : Instr) : Word :=
  match i with
  | .add _ _ _ | .sub _ _ _ | .sll _ _ _ | .slt _ _ _ | .xor _ _ _ | .srl _ _ _ => 0
  | .sra _ _ _ | .or _ _ _ | .and _ _ _ | .mul _ _ _ | .div _ _ _ | .rem _ _ _ => 0
  | .addi _ _ m | .andi _ _ m | .ori _ _ m => m
  | .lb _ _ m | .lh _ _ m | .lw _ _ m | .ld _ _ m => m
  | .jalr _ _ m => m
  | .sb _ _ m | .sh _ _ m | .sw _ _ m | .sd _ _ m => m
  | .beq _ _ m | .bne _ _ m | .blt _ _ m | .bge _ _ m => m
  | .lui _ m | .auipc _ m => m
  | .jal _ m => m

/-- `is_load`: opcode 0000011 (R107). -/
def Instr.isLoad (i : Instr) : Bool := i.opcode = opLoad
/-- `is_store`: opcode 0100011 (R107). -/
def Instr.isStore (i : Instr) : Bool := i.opcode = opStore
/-- `is_branch`: opcode 1100011 (R107). -/
def Instr.isBranch (i : Instr) : Bool := i.opcode = opBranch
/-- `is_jump`: opcodes 1101111 and 1100111 (R107). -/
def Instr.isJump (i : Instr) : Bool := i.opcode = opJal || i.opcode = opJalr
/-- `op = jal`. -/
def Instr.isJal (i : Instr) : Bool := i.opcode = opJal
/-- `op = jalr`. -/
def Instr.isJalr (i : Instr) : Bool := i.opcode = opJalr

/-- `effdest`: rd if it is 1..31, else NONE (R107, R209). -/
def Instr.effDest (i : Instr) : Option Reg :=
  match i.rd with
  | none => none
  | some r => if r = 0#5 then none else some r

/-! ## The encoder (R108) -/

/-- R format: funct7, rs2, rs1, funct3, rd, opcode (R92, R108). -/
def encR (f7 : BitVec 7) (rs2 rs1 : Reg) (f3 : BitVec 3) (rd : Reg) (op : BitVec 7) : Word :=
  (f7 ++ rs2 ++ rs1 ++ f3 ++ rd ++ op : BitVec 32)
/-- I format: m[11:0], rs1, funct3, rd, opcode (R93, R108). -/
def encI (m : Word) (rs1 : Reg) (f3 : BitVec 3) (rd : Reg) (op : BitVec 7) : Word :=
  (m.extractLsb' 0 12 ++ rs1 ++ f3 ++ rd ++ op : BitVec 32)
/-- S format: m[11:5], rs2, rs1, funct3, m[4:0], opcode (R94, R108). -/
def encS (m : Word) (rs2 rs1 : Reg) (f3 : BitVec 3) (op : BitVec 7) : Word :=
  (m.extractLsb' 5 7 ++ rs2 ++ rs1 ++ f3 ++ m.extractLsb' 0 5 ++ op : BitVec 32)
/-- B format: m[12], m[10:5], rs2, rs1, funct3, m[4:1], m[11], opcode (R95, R108). -/
def encB (m : Word) (rs2 rs1 : Reg) (f3 : BitVec 3) (op : BitVec 7) : Word :=
  (m.extractLsb' 12 1 ++ m.extractLsb' 5 6 ++ rs2 ++ rs1 ++ f3 ++ m.extractLsb' 1 4 ++
    m.extractLsb' 11 1 ++ op : BitVec 32)
/-- U format: m[19:0], rd, opcode (R96, R108). -/
def encU (m : Word) (rd : Reg) (op : BitVec 7) : Word :=
  (m.extractLsb' 0 20 ++ rd ++ op : BitVec 32)
/-- UJ format: m[20], m[10:1], m[11], m[19:12], rd, opcode (R97, R108). -/
def encUJ (m : Word) (rd : Reg) (op : BitVec 7) : Word :=
  (m.extractLsb' 20 1 ++ m.extractLsb' 1 10 ++ m.extractLsb' 11 1 ++ m.extractLsb' 12 8 ++
    rd ++ op : BitVec 32)

/-- The machine word of a representable instruction (R102, R108). -/
def encode (i : Instr) : Word :=
  match i with
  | .add rd rs1 rs2 => encR 0b0000000#7 rs2 rs1 0b000#3 rd opR
  | .sub rd rs1 rs2 => encR 0b0100000#7 rs2 rs1 0b000#3 rd opR
  | .sll rd rs1 rs2 => encR 0b0000000#7 rs2 rs1 0b001#3 rd opR
  | .slt rd rs1 rs2 => encR 0b0000000#7 rs2 rs1 0b010#3 rd opR
  | .xor rd rs1 rs2 => encR 0b0000000#7 rs2 rs1 0b100#3 rd opR
  | .srl rd rs1 rs2 => encR 0b0000000#7 rs2 rs1 0b101#3 rd opR
  | .sra rd rs1 rs2 => encR 0b0100000#7 rs2 rs1 0b101#3 rd opR
  | .or rd rs1 rs2 => encR 0b0000000#7 rs2 rs1 0b110#3 rd opR
  | .and rd rs1 rs2 => encR 0b0000000#7 rs2 rs1 0b111#3 rd opR
  | .mul rd rs1 rs2 => encR 0b0000001#7 rs2 rs1 0b000#3 rd opR
  | .div rd rs1 rs2 => encR 0b0000001#7 rs2 rs1 0b100#3 rd opR
  | .rem rd rs1 rs2 => encR 0b0000001#7 rs2 rs1 0b110#3 rd opR
  | .addi rd rs1 m => encI m rs1 0b000#3 rd opI
  | .andi rd rs1 m => encI m rs1 0b111#3 rd opI
  | .ori rd rs1 m => encI m rs1 0b110#3 rd opI
  | .lb rd rs1 m => encI m rs1 0b000#3 rd opLoad
  | .lh rd rs1 m => encI m rs1 0b001#3 rd opLoad
  | .lw rd rs1 m => encI m rs1 0b010#3 rd opLoad
  | .ld rd rs1 m => encI m rs1 0b011#3 rd opLoad
  | .jalr rd rs1 m => encI m rs1 0b000#3 rd opJalr
  | .sb rs1 rs2 m => encS m rs2 rs1 0b000#3 opStore
  | .sh rs1 rs2 m => encS m rs2 rs1 0b001#3 opStore
  | .sw rs1 rs2 m => encS m rs2 rs1 0b010#3 opStore
  | .sd rs1 rs2 m => encS m rs2 rs1 0b011#3 opStore
  | .beq rs1 rs2 m => encB m rs2 rs1 0b000#3 opBranch
  | .bne rs1 rs2 m => encB m rs2 rs1 0b001#3 opBranch
  | .blt rs1 rs2 m => encB m rs2 rs1 0b100#3 opBranch
  | .bge rs1 rs2 m => encB m rs2 rs1 0b101#3 opBranch
  | .lui rd m => encU m rd opLui
  | .auipc rd m => encU m rd opAuipc
  | .jal rd m => encUJ m rd opJal

end Sys2Proof
end

