-- ==== Sys2Proof/Machine/State.lean ====
section
/-! DEFINITION. The execution-state record (10_state.md): plain data, everything the spec gives the
block, with reset, and the reasons a step can stop. -/

namespace Sys2Proof.Machine

/-- The phase of the non-pipelined machine, "a strict 5-state machine" (R38, R221). -/
inductive Phase where
  | fetch | decode | execute | memory | writeback
  deriving DecidableEq, Repr

/-- The item in slot F: a raw fetched word and its address (R30, R32). -/
structure Fetched where
  /-- The word `IFetch` delivered. -/
  word : Word
  /-- The address it was fetched from. -/
  fpc : Word
  deriving DecidableEq, Repr

/-- An instruction record (R31). `fmt`, `op`, `opcode`, `funct3`, `funct7`, `rd`, `rs1`, `rs2`, `imm`
and the capability tags are functions of `instr` (Decode.lean). DESIGN CHOICE, safe (log entry 19). -/
structure Rec where
  /-- The decoded instruction: `op` and its operands. -/
  instr : Instr
  /-- The address the word was fetched from. -/
  fpc : Word
  /-- Identity: the decode counter's value when the record was created (R40). -/
  seq : Nat
  /-- What the decode stage assumed about this control transfer (R281). -/
  predTaken : Bool
  /-- The actual outcome: `none` until a branch executes ("meaningful after execute of a
  branch"). DESIGN CHOICE, safe (log entry 8). -/
  taken : Option Bool
  deriving DecidableEq, Repr

/-- The Destination Window `win[0..4]` (R33): `none` is NONE (DESIGN CHOICE, safe; log entry 9); `w4` is the
newest entry. -/
structure Window where
  /-- `win[0]`, the oldest. -/
  w0 : Option Reg
  /-- `win[1]`. -/
  w1 : Option Reg
  /-- `win[2]`, aligned with slot W. -/
  w2 : Option Reg
  /-- `win[3]`, aligned with slot X. -/
  w3 : Option Reg
  /-- `win[4]`, the newest. -/
  w4 : Option Reg
  deriving DecidableEq, Repr

/-- Source buffer of a forwarding entry (R34). -/
inductive FwdSrc where
  | Z | Y
  deriving DecidableEq, Repr

/-- Destination buffer of a forwarding entry (R34). -/
inductive FwdDst where
  | A | B
  deriving DecidableEq, Repr

/-- One entry `(p_seq, c_seq, src, dst)` of the Forwarding Table (R34). -/
structure FwdEntry where
  /-- The producer's identity. -/
  pSeq : Nat
  /-- The consumer's identity. -/
  cSeq : Nat
  /-- The buffer copied from. -/
  src : FwdSrc
  /-- The buffer copied to. -/
  dst : FwdDst
  deriving DecidableEq, Repr

/-- The error causes (R307). -/
inductive ErrCode where
  | unknownOpcode | unknownFunct | loadRange | storeRange | divZero
  deriving DecidableEq, Repr

/-- The trace events (R47). `err` and `fatal` carry the info beside the code, `fwd` its whole
entry, and a stage event its whole record. DEDUCED, safe (log entry 7). -/
inductive Event where
  | wb (i : Rec)
  | mem (i : Rec)
  | ex (i : Rec)
  | id (i : Rec)
  | ifAt (addr : Word)
  | ifNone
  | ifWithheld
  | bubble
  | stall (n : Nat)
  | promote (i : Rec)
  | fwd (e : FwdEntry)
  | flush
  | done
  | fatal (code : ErrCode) (info : Word)
  | err (code : ErrCode) (info : Word)
  deriving DecidableEq, Repr

/-- The instruction space `IMEM` (R61): a partial map from addresses to words, as a list with
strictly rising addresses. -/
abbrev IMem := List (Nat × Word)

/-- The data space or the stack space (R63): a total map from addresses to bytes, as the list of the
bytes that differ from `Config.memDefaultByte`, addresses strictly rising. -/
abbrev Memory := List Host.Cell

/-- Why a step can stop without a next state. No instruction's meaning answers one, and no state that
satisfies `Safety.Inv` does; the spec's own errors are next states (R301, R302). DESIGN CHOICE, safe
(log entry 10). -/
inductive Fault where
  /-- Raised by a phase of the non-pipelined machine whose slot is empty (R223 to R226 read the slot
  without a case for it). No reachable state is such a state. Safe: the model stops. -/
  | slotEmpty (p : Phase)
  /-- Raised by hazard detection with forwarding enabled when the window names a producer and the slot
  aligned with it is empty (R254 to R256 read `X.seq`, `X.is_load`, `W.seq`). No reachable state is
  such a state. Safe: the model stops. -/
  | producerMissing (src : FwdSrc)
  deriving DecidableEq, Repr

/-- Why an instruction can have no meaning. -/
inductive Refusal where
  /-- Raised by an arm of `exec` whose instruction is not modelled yet. There is none. Safe. -/
  | notModelled (mnemonic : String)
  deriving DecidableEq, Repr

/-- The execution-state record. -/
structure State where
  /-- The 32 general registers (R20). `regs[0]` is never written; reads go through `State.readReg`. -/
  regs : Vector Word 32
  /-- The address of the next word the fetch stage will fetch (R23). -/
  pc : Word
  /-- Stage buffer A, the first operand (R26, R27). -/
  bufA : Word
  /-- Stage buffer B, the second operand (R26, R27). -/
  bufB : Word
  /-- Stage buffer Z, the execute-stage result (R28). -/
  bufZ : Word
  /-- Stage buffer Y, the value destined for writeback (R29). -/
  bufY : Word
  /-- Stage buffer M, a store's value or a jump's target (R29). -/
  bufM : Word
  /-- Slot F: fetched, not decoded (R30, R32). -/
  slotF : Option Fetched
  /-- Slot D: decoded, waits for execute (R30). -/
  slotD : Option Rec
  /-- Slot X: executed, waits for memory (R30). -/
  slotX : Option Rec
  /-- Slot W: memory done, waits for writeback (R30). -/
  slotW : Option Rec
  /-- Slot S: decoded and parked by the hazard unit (R30). -/
  slotS : Option Rec
  /-- The Destination Window (R33). -/
  win : Window
  /-- The Forwarding Table, in the order created (R34, R259). -/
  ftab : List FwdEntry
  /-- The bubble counter (R35). -/
  bubble : Nat
  /-- The sticky prediction bit: true = predict taken (R36, R280). -/
  predBit : Bool
  /-- The state of the non-pipelined machine (R38). -/
  phase : Phase
  /-- The run is complete; sticky (R39). -/
  done : Bool
  /-- The engine cannot proceed; sticky (R39, R302). -/
  fatal : Bool
  /-- Code of the fatal error, 0 = none (R37, R307). -/
  fatalCode : BitVec 8
  /-- The word that failed to decode (R302, R307). -/
  fatalInfo : Word
  /-- A recoverable error has been logged; sticky (R37, R39). -/
  errSeen : Bool
  /-- Code of the most recent recoverable error, 0 = none (R301, R307). -/
  errCode : BitVec 8
  /-- Info of the most recent recoverable error (R301, R307). -/
  errInfo : Word
  /-- The decode counter (R40). -/
  seqCtr : Nat
  /-- The parameters sampled at reset, `cfg_*` and `TERM_ADDR` among them (R7, R37, R46). -/
  params : Params
  /-- The instruction space (R42, R61). -/
  imem : IMem
  /-- The data space (R42, R63). -/
  data : Memory
  /-- The stack space (R42, R63). -/
  stack : Memory
  /-- The events of the last effective step, oldest first: the diagnostic output (R45, R47, R220).
  The model's own field: DESIGN CHOICE, safe (log entry 6). -/
  trace : List Event
  deriving DecidableEq, Repr

/-- The window with NONE in all five entries (R44). -/
def Window.empty : Window := ⟨none, none, none, none, none⟩

/-- The host operation `reset(cfg, IMEM, DMEM_INIT, SP_INIT, GP_INIT, TERM_ADDR)`: every piece of state
at the value of the reset table (R44, R45, R330, R331). `sm` is the part of the loader's "initial
data/stack memory image" that lies in the stack space. DESIGN CHOICE, safe (log entry 14). -/
def State.resetWith (p : Params) (im : IMem) (dm sm : Memory) : State where
  regs := ((Vector.replicate 32 0).set 2 p.spInit).set 3 p.gpInit
  pc := p.pcReset
  bufA := 0
  bufB := 0
  bufZ := 0
  bufY := 0
  bufM := 0
  slotF := none
  slotD := none
  slotX := none
  slotW := none
  slotS := none
  win := Window.empty
  ftab := []
  bubble := 0
  predBit := Config.predInit
  phase := .fetch
  done := false
  fatal := false
  fatalCode := 0
  fatalInfo := 0
  errSeen := false
  errCode := 0
  errInfo := 0
  seqCtr := 0
  params := p
  imem := im
  data := dm
  stack := sm
  trace := []

/-- The machine right after reset in the reference configuration with nothing loaded (R44):
`IMEM`, `DMEM_INIT` and the stack image are empty. DESIGN CHOICE, unsafe (log entries 1 and 2). -/
def State.reset : State := State.resetWith Params.reference [] [] []

end Sys2Proof.Machine
end

