-- ==== Sys2Proof/Machine/Ops.lean ====
section
/-! DEFINITION. The named operations over the state: registers (R20, R21), the two error primitives
(R301, R302), the trace (R47), the buffers, and the three memory spaces (20_memory.md). -/

namespace Sys2Proof.Machine

/-! ## General registers -/

/-- `x[r]`: register 0 always reads 0 (R12, R21). -/
def State.readReg (s : State) (r : Reg) : Word :=
  if r = 0#5 then 0#32 else s.regs[r.toNat]'r.isLt

/-- `x[r] <- v`: no effect when r = 0 (R12, R21, R305). -/
def State.writeReg (s : State) (r : Reg) (v : Word) : State :=
  { s with regs := if r = 0#5 then s.regs else s.regs.set r.toNat v r.isLt }

/-! ## Buffers, pc and trace -/

/-- `pc <- t` (R24). -/
def State.setPc (s : State) (t : Word) : State := { s with pc := t }
/-- `A <- a ; B <- b`, the operand read's writes (R27). -/
def State.setAB (s : State) (a b : Word) : State := { s with bufA := a, bufB := b }
/-- `A <- a` (R259). -/
def State.setA (s : State) (a : Word) : State := { s with bufA := a }
/-- `B <- b` (R259). -/
def State.setB (s : State) (b : Word) : State := { s with bufB := b }
/-- `Z <- v` (R28). -/
def State.setZ (s : State) (v : Word) : State := { s with bufZ := v }
/-- `Y <- v` (R29). -/
def State.setY (s : State) (v : Word) : State := { s with bufY := v }
/-- `M <- v` (R29). -/
def State.setM (s : State) (v : Word) : State := { s with bufM := v }

/-- `F <- empty` (R207, R209). -/
def State.emptyF (s : State) : State := { s with slotF := none }
/-- `D <- i` (R223). -/
def State.putD (s : State) (i : Rec) : State := { s with slotD := some i }
/-- `X <- i ; D <- empty` (R206, R224). -/
def State.moveToX (s : State) (i : Rec) : State := { s with slotX := some i, slotD := none }
/-- `W <- i ; X <- empty` (R205, R225). -/
def State.moveToW (s : State) (i : Rec) : State := { s with slotW := some i, slotX := none }
/-- `W <- empty` (R203, R226). -/
def State.emptyW (s : State) : State := { s with slotW := none }
/-- `S <- empty` (R216). -/
def State.emptyS (s : State) : State := { s with slotS := none }
/-- `phase <- p` (R221). -/
def State.setPhase (s : State) (p : Phase) : State := { s with phase := p }

/-- `s` with nothing in flight and no run ended: what the next step needs to fetch at pc and to take
nothing else through its stages. The reset state is so already. DESIGN CHOICE, safe (log entry 4). -/
def State.idle (s : State) : State :=
  { s with
    slotF := none, slotD := none, slotX := none, slotW := none, slotS := none, win := Window.empty,
    ftab := [], bubble := 0, phase := .fetch, done := false, fatal := false, fatalCode := 0#8,
    fatalInfo := 0#32 }

/-- `emit(event)`: appends one event to the step's trace output (R12, R47). -/
def State.emit (s : State) (e : Event) : State := { s with trace := s.trace ++ [e] }

/-- A step starts with an empty event list: the trace output is that of the last step (R45, R220). -/
def State.beginStep (s : State) : State := { s with trace := [] }

/-! ## Errors (60_exceptions.md) -/

/-- The code numbers (R307); 0 is "no error". -/
def ErrCode.num (c : ErrCode) : BitVec 8 :=
  match c with
  | .unknownOpcode => 1
  | .unknownFunct => 2
  | .loadRange => 3
  | .storeRange => 4
  | .divZero => 5

/-- `log(code, info)`: the recoverable-error primitive (R301). Nothing else changes. -/
def State.log (s : State) (c : ErrCode) (info : Word) : State :=
  { s with errSeen := true, errCode := c.num, errInfo := info, trace := s.trace ++ [.err c info] }

/-- `raise Fatal(code, info)`: the fatal-error primitive, all the entry there is (R302, R310). Its
caller ends the step; there is no return from it (R311). -/
def State.raiseFatal (s : State) (c : ErrCode) (info : Word) : State :=
  { s with
    fatal := true, fatalCode := c.num, fatalInfo := info, trace := s.trace ++ [.fatal c info] }

/-- `done <- 1 ; emit(DONE)` (R204, R215, R222). -/
def State.finish (s : State) : State := { s with done := true, trace := s.trace ++ [.done] }

/-! ## The instruction space (R61) -/

/-- The partial map's value at an address. -/
def IMem.lookup (m : IMem) (a : Nat) : Option Word :=
  match m with
  | [] => none
  | (k, w) :: rest => if a = k then some w else IMem.lookup rest a

/-- The map with one more word, keeping addresses strictly rising: how a loader builds `IMEM`. -/
def IMem.insert (m : IMem) (a : Nat) (w : Word) : IMem :=
  match m with
  | [] => [(a, w)]
  | (k, v) :: rest =>
    if a < k then (a, w) :: (k, v) :: rest
    else if a = k then (a, w) :: rest
    else (k, v) :: IMem.insert rest a w

/-- The canonical form of an instruction space: addresses strictly rising. -/
def IMem.wf (m : IMem) : Bool := decide (m.Pairwise fun x y => x.1 < y.1)

/-- `IFetch(a)`: the word at `a` when `IMEM` maps `a` and `a` is not `TERM_ADDR` (R61, R62). -/
def State.ifetch (s : State) (a : Word) : Option Word :=
  if a = s.params.termAddr then none else s.imem.lookup a.toNat

/-! ## Bytes of the data and stack spaces (R63) -/

/-- The byte at an address; an unlisted address reads `MEM_DEFAULT_BYTE` (R63). -/
def Memory.read (m : Memory) (a : Nat) : Byte :=
  match m with
  | [] => Config.memDefaultByte
  | (k, b) :: rest => if a = k then b else Memory.read rest a

/-- The listing with the byte at an address replaced, in canonical form. -/
def Memory.write (m : Memory) (a : Nat) (b : Byte) : Memory :=
  match m with
  | [] => if b = Config.memDefaultByte then [] else [(a, b)]
  | (k, c) :: rest =>
    if a < k then
      if b = Config.memDefaultByte then (k, c) :: rest else (a, b) :: (k, c) :: rest
    else if a = k then
      if b = Config.memDefaultByte then rest else (a, b) :: rest
    else (k, c) :: Memory.write rest a b

/-- The canonical form: addresses strictly rising, no entry equal to what an unlisted address reads as. -/
def Memory.wf (m : Memory) : Bool :=
  decide (m.Pairwise fun x y => x.1 < y.1) && m.all fun c => c.2 != Config.memDefaultByte

/-- The n bytes at a .. a + n - 1, lowest address first. -/
def Memory.readBytes (m : Memory) (a : Nat) (n : Nat) : List Byte :=
  match n with
  | 0 => []
  | k + 1 => Memory.read m a :: Memory.readBytes m (a + 1) k

/-- Bytes written from address a upwards. -/
def Memory.writeBytes (m : Memory) (a : Nat) (bs : List Byte) : Memory :=
  match bs with
  | [] => m
  | b :: rest => Memory.writeBytes (Memory.write m a b) (a + 1) rest

/-- The number whose byte i is the i-th byte of the list: little-endian (R66, R70). -/
def leValue (bs : List Byte) : Nat :=
  match bs with
  | [] => 0
  | b :: rest => b.toNat + 256 * leValue rest

/-- The n bytes of a value, byte i = `(value >> 8i) & 0xFF` (R67, R70). -/
def leBytes (n : Nat) (v : BitVec w) : List Byte :=
  (List.range n).map fun i => v.extractLsb' (8 * i) 8

/-! ## Routing and access (R64 to R69) -/

/-- The two regions a load or store can reach (R60, R64). -/
inductive Region where
  | data | stack
  deriving DecidableEq, Repr

/-- `region(a)`: by the address alone, the data window first (R64). DESIGN CHOICE (log entry 13), unsafe
where R8 does not hold. -/
def Params.region (p : Params) (a : Word) : Option Region :=
  if p.dataLo.toNat ≤ a.toNat ∧ a.toNat ≤ p.dataHi.toNat then some .data
  else if p.stackLo.toNat ≤ a.toNat ∧ a.toNat ≤ p.stackHi.toNat then some .stack
  else none

/-- The last address of a region's window. -/
def Params.lastAddr (p : Params) (r : Region) : Nat :=
  match r with
  | .data => p.dataHi.toNat
  | .stack => p.stackHi.toNat

/-- The range check of an n-byte access at a: the region of its first byte, when a + n - 1, computed
without wrap-around, is not above that region's last address (R65, R74). -/
def Params.accessRegion (p : Params) (a : Word) (n : Nat) : Option Region :=
  match Params.region p a with
  | none => none
  | some r => if a.toNat + n - 1 ≤ Params.lastAddr p r then some r else none

/-- The space that holds a region's bytes. -/
def State.space (s : State) (r : Region) : Memory :=
  match r with
  | .data => s.data
  | .stack => s.stack

/-- The state with a region's space replaced. -/
def State.setSpace (s : State) (r : Region) (m : Memory) : State :=
  match r with
  | .data => { s with data := m }
  | .stack => { s with stack := m }

/-- One byte of a region's space: what a memory-segment snapshot shows (R45). -/
def State.readByte (s : State) (r : Region) (a : Nat) : Byte := Memory.read (s.space r) a

/-- `MemRead(a, n)`: `none` is `out_of_range` (R66). -/
def State.memRead (s : State) (a : Word) (n : Nat) : Option (BitVec (8 * n)) :=
  match Params.accessRegion s.params a n with
  | none => none
  | some r => some (BitVec.ofNat (8 * n) (leValue (Memory.readBytes (s.space r) a.toNat n)))

/-- `MemWrite(a, n, v)`: `none` is `out_of_range`, and then no byte changes (R67). -/
def State.memWrite (s : State) (a : Word) (n : Nat) (v : BitVec (8 * n)) : Option State :=
  match Params.accessRegion s.params a n with
  | none => none
  | some r => some (s.setSpace r (Memory.writeBytes (s.space r) a.toNat (leBytes n v)))

end Sys2Proof.Machine
end

