-- ==== Sys2Proof/Machine/Flags.lean ====
section
/-! DEFINITION. The block has no flags (R25). Here are the comparisons that stand in their place (R124,
R171 to R174) and the effective configuration flags (R9). -/

namespace Sys2Proof.Machine

/-- beq: all 32 bits equal (R171). -/
def condEq (a b : Word) : Bool := a == b
/-- bne (R172). -/
def condNe (a b : Word) : Bool := a != b
/-- blt, and slt's comparison: signed (R124, R173). -/
def condLt (a b : Word) : Bool := decide (a.toInt < b.toInt)
/-- bge: signed, the exact negation of blt's condition (R174). -/
def condGe (a b : Word) : Bool := decide (b.toInt ≤ a.toInt)

/-- `fwd_on = cfg_pipelined AND cfg_forward` (R9). -/
def State.fwdOn (s : State) : Bool := s.params.cfgPipelined && s.params.cfgForward
/-- `pred_on = cfg_pipelined AND cfg_predict` (R9). -/
def State.predOn (s : State) : Bool := s.params.cfgPipelined && s.params.cfgPredict

/-- `done` or `fatal` is set: every step leaves the whole state unchanged (R13, R200). -/
def State.halted (s : State) : Bool := s.done || s.fatal

end Sys2Proof.Machine
end

