-- ==== Sys2Proof/Machine/Operands.lean ====
section
/-! DEFINITION. Every operand form: the operand read at decode (R201, R210), the effective address of a
load and a store, and the targets of control transfers. -/

namespace Sys2Proof.Machine

/-- A source register's value; an absent register gives 0 (R201, decision D31). -/
def State.readSrc (s : State) (r : Option Reg) : Word :=
  match r with
  | none => 0#32
  | some r => s.readReg r

/-- The value that goes to A: x[rs1], or 0 when rs1 is absent (R201). -/
def State.operandA (s : State) (i : Instr) : Word := s.readSrc i.rs1

/-- The value that goes to B: x[rs2] for R, S and B formats; the immediate where rs2 is absent (R201). -/
def State.operandB (s : State) (i : Instr) : Word :=
  match i.fmt with
  | .R => s.readSrc i.rs2
  | .S => s.readSrc i.rs2
  | .B => s.readSrc i.rs2
  | .I => i.imm
  | .U => i.imm
  | .UJ => i.imm

/-- `ReadOperands(i)` (R201, R210). -/
def readOperands (i : Instr) (s : State) : State := s.setAB (s.operandA i) (s.operandB i)

/-- The effective address of a load, from A and the immediate in B (R150). -/
def State.loadAddr (s : State) : Word := s.bufA + s.bufB

/-- The effective address of a store, from A and the record's immediate (R155). -/
def State.storeAddr (s : State) (i : Instr) : Word := s.bufA + i.imm

/-- The pc-relative target of a branch or jal: `(fpc + imm) mod 2^32` (R170, R182). -/
def Rec.target (r : Rec) : Word := r.fpc + r.instr.imm

/-- The address after the instruction: fall-through and return address `(fpc + 4) mod 2^32`. -/
def Rec.next (r : Rec) : Word := r.fpc + 4#32

/-- jalr's target: `((A + B) mod 2^32) AND 0xFFFFFFFE` (R183). -/
def State.jalrTarget (s : State) : Word := (s.bufA + s.bufB) &&& 0xFFFFFFFE#32

/-- The shift amount: the low five bits of the second operand (R123, R133). -/
def shiftAmount (b : Word) : Nat := (b.extractLsb' 0 5).toNat

end Sys2Proof.Machine
end

