-- ==== Sys2Proof/Machine/Alu.lean ====
section
/-! DEFINITION. The ALU functions `f(a, b)` of the register and immediate arithmetic (40_alu_r.md, 41_alu_i.md). -/

namespace Sys2Proof.Machine

/-- add, addi: modulo 2^32 (R121, R141). -/
def aluAdd (a b : Word) : Word := a + b
/-- sub: modulo 2^32 (R122). -/
def aluSub (a b : Word) : Word := a - b
/-- sll: zeros shifted in at the right (R123). -/
def aluSll (a b : Word) : Word := a <<< shiftAmount b
/-- slt: 1 if the signed readings compare less, else 0 (R124). -/
def aluSlt (a b : Word) : Word := if condLt a b then 1#32 else 0#32
/-- xor (R125). -/
def aluXor (a b : Word) : Word := a ^^^ b
/-- srl: zeros shifted in at the left (R126). -/
def aluSrl (a b : Word) : Word := a >>> shiftAmount b
/-- sra: bit 31 shifted in at the left (R127). -/
def aluSra (a b : Word) : Word := a.sshiftRight (shiftAmount b)
/-- or, ori (R128, R143). -/
def aluOr (a b : Word) : Word := a ||| b
/-- and, andi (R129, R142). -/
def aluAnd (a b : Word) : Word := a &&& b
/-- mul: the low 32 bits of the product (R130). -/
def aluMul (a b : Word) : Word := a * b

/-- The one signed-overflow pair, -2^31 by -1 (R131, R132; 93_implementation_defined.md U2). -/
def isDivOverflow (a b : Word) : Bool := a == 0x80000000#32 && b == 0xFFFFFFFF#32

/-- div: -1 for a zero divisor, `DIV_OVERFLOW_Q` for the overflow pair, else the quotient of the signed
readings rounded toward zero (R131). -/
def aluDiv (p : Params) (a b : Word) : Word :=
  if b = 0#32 then 0xFFFFFFFF#32
  else if isDivOverflow a b then p.divOverflowQ
  else BitVec.ofInt 32 (a.toInt.tdiv b.toInt)

/-- rem: the dividend for a zero divisor, `DIV_OVERFLOW_R` for the overflow pair, else the remainder that
matches the truncating quotient (R132). -/
def aluRem (p : Params) (a b : Word) : Word :=
  if b = 0#32 then a
  else if isDivOverflow a b then p.divOverflowR
  else BitVec.ofInt 32 (a.toInt - b.toInt * a.toInt.tdiv b.toInt)

end Sys2Proof.Machine
end

