-- ==== Sys2Proof/Machine/Retire.lean ====
section
/-! DEFINITION. What all instructions share: the record made at decode, the pass-through memory stage, the
writeback stage, the non-pipelined pc rules, and an instruction run alone from fetch to writeback. -/

namespace Sys2Proof.Machine

/-- The record decode makes of an instruction fetched from `a` (R31, R209, R223). -/
def newRec (i : Instr) (a : Word) (seq : Nat) : Rec :=
  { instr := i, fpc := a, seq := seq, predTaken := false, taken := none }

/-- The memory stage of everything but a load or store: `Y <- Z` (R201). -/
def memoryPass (s : State) : State := s.setY s.bufZ

/-- `Writeback(i)`: Y to rd; a store or branch has none, and a write to x0 is dropped (R201, R203). -/
def writeback (r : Rec) (s : State) : State :=
  match r.instr.rd with
  | none => s
  | some rd => s.writeReg rd s.bufY

/-- The execute phase's pc rule of non-pipelined mode: a taken branch sets pc (R224). -/
def branchAtExecute (r : Rec) (s : State) : State :=
  if r.instr.isBranch && r.taken == some true then s.setPc r.target else s

/-- The writeback phase's pc rule of non-pipelined mode: jal and jalr set pc to M (R226). -/
def jumpAtWriteback (r : Rec) (s : State) : State :=
  if r.instr.isJump then s.setPc s.bufM else s

/-- The decode counter's increment (R40). -/
def State.countDecode (s : State) : State := { s with seqCtr := s.seqCtr + 1 }

/-- An instruction executed alone, at `pc`, from its fetch to its writeback: the fetch's pc increment,
operand read, its execute procedure `ex`, the branch rule, its memory procedure `mem`, writeback and
the jump rule, in the order of the five phases (R201, R222 to R226). It is what five steps of the
non-pipelined machine do (Obligations.FiveStepsRunInstruction); the slots and `phase` are as before.
The trace left is the last phase's. DESIGN CHOICE, safe (log entry 11). -/
def runAlone (i : Instr) (ex : Rec → State → Rec × State) (mem : State → State) (s : State) :
    Host.Outcome State Fault Refusal :=
  let s0 := (s.setPc (s.pc + 4#32)).countDecode
  let s1 := readOperands i s0
  let r := ex (newRec i s.pc s0.seqCtr) s1
  let s3 := mem (branchAtExecute r.1 r.2)
  .next (jumpAtWriteback r.1 ((writeback r.1 s3.beginStep).emit (.wb r.1)))

end Sys2Proof.Machine
end

