-- ==== Sys2Proof/Machine/AluR.lean ====
section
/-! DEFINITION. The register-register family: add, sub, sll, slt, xor, srl, sra, or, and, mul, div, rem
(40_alu_r.md). `execute<Op>` is the execute stage, `exec<Op>` the instruction run alone. -/

namespace Sys2Proof.Machine

/-- `Z <- f(A, B)` (R120, R140, R201). -/
def executeAlu (f : Word → Word → Word) (r : Rec) (s : State) : Rec × State :=
  (r, s.setZ (f s.bufA s.bufB))

/-- `Z <- f(A, B)`, and `log(E_DIV_ZERO, fpc)` when the divisor is 0 (R131, R132, R304). -/
def executeDivide (f : Params → Word → Word → Word) (r : Rec) (s : State) : Rec × State :=
  (r, (if s.bufB = 0#32 then s.log .divZero r.fpc else s).setZ (f s.params s.bufA s.bufB))

/-- add, execute stage (R121). -/
def executeAdd (r : Rec) (s : State) : Rec × State := executeAlu aluAdd r s
/-- add rd, rs1, rs2 (R121). -/
def execAdd (rd rs1 rs2 : Reg) (s : State) : Host.Outcome State Fault Refusal :=
  runAlone (.add rd rs1 rs2) executeAdd memoryPass s

/-- sub, execute stage (R122). -/
def executeSub (r : Rec) (s : State) : Rec × State := executeAlu aluSub r s
/-- sub rd, rs1, rs2 (R122). -/
def execSub (rd rs1 rs2 : Reg) (s : State) : Host.Outcome State Fault Refusal :=
  runAlone (.sub rd rs1 rs2) executeSub memoryPass s

/-- sll, execute stage (R123). -/
def executeSll (r : Rec) (s : State) : Rec × State := executeAlu aluSll r s
/-- sll rd, rs1, rs2 (R123). -/
def execSll (rd rs1 rs2 : Reg) (s : State) : Host.Outcome State Fault Refusal :=
  runAlone (.sll rd rs1 rs2) executeSll memoryPass s

/-- slt, execute stage (R124). -/
def executeSlt (r : Rec) (s : State) : Rec × State := executeAlu aluSlt r s
/-- slt rd, rs1, rs2 (R124). -/
def execSlt (rd rs1 rs2 : Reg) (s : State) : Host.Outcome State Fault Refusal :=
  runAlone (.slt rd rs1 rs2) executeSlt memoryPass s

/-- xor, execute stage (R125). -/
def executeXor (r : Rec) (s : State) : Rec × State := executeAlu aluXor r s
/-- xor rd, rs1, rs2 (R125). -/
def execXor (rd rs1 rs2 : Reg) (s : State) : Host.Outcome State Fault Refusal :=
  runAlone (.xor rd rs1 rs2) executeXor memoryPass s

/-- srl, execute stage (R126). -/
def executeSrl (r : Rec) (s : State) : Rec × State := executeAlu aluSrl r s
/-- srl rd, rs1, rs2 (R126). -/
def execSrl (rd rs1 rs2 : Reg) (s : State) : Host.Outcome State Fault Refusal :=
  runAlone (.srl rd rs1 rs2) executeSrl memoryPass s

/-- sra, execute stage (R127). -/
def executeSra (r : Rec) (s : State) : Rec × State := executeAlu aluSra r s
/-- sra rd, rs1, rs2 (R127). -/
def execSra (rd rs1 rs2 : Reg) (s : State) : Host.Outcome State Fault Refusal :=
  runAlone (.sra rd rs1 rs2) executeSra memoryPass s

/-- or, execute stage (R128). -/
def executeOr (r : Rec) (s : State) : Rec × State := executeAlu aluOr r s
/-- or rd, rs1, rs2 (R128). -/
def execOr (rd rs1 rs2 : Reg) (s : State) : Host.Outcome State Fault Refusal :=
  runAlone (.or rd rs1 rs2) executeOr memoryPass s

/-- and, execute stage (R129). -/
def executeAnd (r : Rec) (s : State) : Rec × State := executeAlu aluAnd r s
/-- and rd, rs1, rs2 (R129). -/
def execAnd (rd rs1 rs2 : Reg) (s : State) : Host.Outcome State Fault Refusal :=
  runAlone (.and rd rs1 rs2) executeAnd memoryPass s

/-- mul, execute stage (R130). -/
def executeMul (r : Rec) (s : State) : Rec × State := executeAlu aluMul r s
/-- mul rd, rs1, rs2 (R130). -/
def execMul (rd rs1 rs2 : Reg) (s : State) : Host.Outcome State Fault Refusal :=
  runAlone (.mul rd rs1 rs2) executeMul memoryPass s

/-- div, execute stage (R131). -/
def executeDiv (r : Rec) (s : State) : Rec × State := executeDivide aluDiv r s
/-- div rd, rs1, rs2 (R131). -/
def execDiv (rd rs1 rs2 : Reg) (s : State) : Host.Outcome State Fault Refusal :=
  runAlone (.div rd rs1 rs2) executeDiv memoryPass s

/-- rem, execute stage (R132). -/
def executeRem (r : Rec) (s : State) : Rec × State := executeDivide aluRem r s
/-- rem rd, rs1, rs2 (R132). -/
def execRem (rd rs1 rs2 : Reg) (s : State) : Host.Outcome State Fault Refusal :=
  runAlone (.rem rd rs1 rs2) executeRem memoryPass s

end Sys2Proof.Machine
end

