-- ==== Sys2Proof/Machine/AluI.lean ====
section
/-! DEFINITION. The register-immediate family: addi, andi, ori (41_alu_i.md). B holds the immediate. -/

namespace Sys2Proof.Machine

/-- addi, execute stage (R141). -/
def executeAddi (r : Rec) (s : State) : Rec × State := executeAlu aluAdd r s
/-- addi rd, rs1, imm (R141). -/
def execAddi (rd rs1 : Reg) (imm : Word) (s : State) : Host.Outcome State Fault Refusal :=
  runAlone (.addi rd rs1 imm) executeAddi memoryPass s

/-- andi, execute stage (R142). -/
def executeAndi (r : Rec) (s : State) : Rec × State := executeAlu aluAnd r s
/-- andi rd, rs1, imm (R142). -/
def execAndi (rd rs1 : Reg) (imm : Word) (s : State) : Host.Outcome State Fault Refusal :=
  runAlone (.andi rd rs1 imm) executeAndi memoryPass s

/-- ori, execute stage (R143). -/
def executeOri (r : Rec) (s : State) : Rec × State := executeAlu aluOr r s
/-- ori rd, rs1, imm (R143). -/
def execOri (rd rs1 : Reg) (imm : Word) (s : State) : Host.Outcome State Fault Refusal :=
  runAlone (.ori rd rs1 imm) executeOri memoryPass s

end Sys2Proof.Machine
end

