-- ==== Sys2Proof/Machine/Branch.lean ====
section
/-! DEFINITION. The conditional branches: beq, bne, blt, bge (43_branch.md). -/

namespace Sys2Proof.Machine

/-- A branch's execute stage: `taken <- cond(A, B) ; Z <- (fpc + imm) mod 2^32`, taken or not (R170). -/
def executeBranch (cond : Word → Word → Bool) (r : Rec) (s : State) : Rec × State :=
  ({ r with taken := some (cond s.bufA s.bufB) }, s.setZ r.target)

/-- beq, execute stage (R170, R171). -/
def executeBeq (r : Rec) (s : State) : Rec × State := executeBranch condEq r s
/-- beq rs1, rs2, offset (R171). -/
def execBeq (rs1 rs2 : Reg) (imm : Word) (s : State) : Host.Outcome State Fault Refusal :=
  runAlone (.beq rs1 rs2 imm) executeBeq memoryPass s

/-- bne, execute stage (R170, R172). -/
def executeBne (r : Rec) (s : State) : Rec × State := executeBranch condNe r s
/-- bne rs1, rs2, offset (R172). -/
def execBne (rs1 rs2 : Reg) (imm : Word) (s : State) : Host.Outcome State Fault Refusal :=
  runAlone (.bne rs1 rs2 imm) executeBne memoryPass s

/-- blt, execute stage (R170, R173). -/
def executeBlt (r : Rec) (s : State) : Rec × State := executeBranch condLt r s
/-- blt rs1, rs2, offset (R173). -/
def execBlt (rs1 rs2 : Reg) (imm : Word) (s : State) : Host.Outcome State Fault Refusal :=
  runAlone (.blt rs1 rs2 imm) executeBlt memoryPass s

/-- bge, execute stage (R170, R174). -/
def executeBge (r : Rec) (s : State) : Rec × State := executeBranch condGe r s
/-- bge rs1, rs2, offset (R174). -/
def execBge (rs1 rs2 : Reg) (imm : Word) (s : State) : Host.Outcome State Fault Refusal :=
  runAlone (.bge rs1 rs2 imm) executeBge memoryPass s

end Sys2Proof.Machine
end

