-- ==== Sys2Proof/Machine/LoadStore.lean ====
section
/-! DEFINITION. Loads and stores: lb, lh, lw, ld, sb, sh, sw, sd (42_load_store.md). -/

namespace Sys2Proof.Machine

/-! ## The shared stage procedures -/

/-- A load's execute stage: `Z <- (A + B) mod 2^32` (R150). -/
def executeLoad (r : Rec) (s : State) : Rec × State := (r, s.setZ s.loadAddr)

/-- A store's execute stage: `Z <- (A + imm) mod 2^32 ; M <- B` (R155). -/
def executeStore (r : Rec) (s : State) : Rec × State :=
  (r, (s.setZ (s.storeAddr r.instr)).setM s.bufB)

/-- A load's memory stage: the extended value to Y; out of range, 0 to Y and a log entry (R68, R150). -/
def memoryLoad (n : Nat) (ext : BitVec (8 * n) → Word) (s : State) : State :=
  match s.memRead s.bufZ n with
  | some v => s.setY (ext v)
  | none => (s.setY 0#32).log .loadRange s.bufZ

/-- A store's memory stage: the n bytes of `val(M)`; out of range, a log entry and no byte; then
`Y <- Z` (R69, R155, R201). -/
def memoryStore (n : Nat) (val : Word → BitVec (8 * n)) (s : State) : State :=
  match s.memWrite s.bufZ n (val s.bufM) with
  | some s' => s'.setY s'.bufZ
  | none => (s.log .storeRange s.bufZ).setY s.bufZ

/-! ## The widths' extensions and value maps -/

/-- `sext_8` (R151). -/
def extByte (v : BitVec (8 * 1)) : Word := v.signExtend 32
/-- `sext_16` (R152). -/
def extHalf (v : BitVec (8 * 2)) : Word := v.signExtend 32
/-- All 32 bits (R153). -/
def extWord (v : BitVec (8 * 4)) : Word := v
/-- The low 32 of 64 bits (R154). -/
def extDouble (v : BitVec (8 * 8)) : Word := v.extractLsb' 0 32
/-- `m[7:0]` (R156). -/
def valByte (m : Word) : BitVec (8 * 1) := m.extractLsb' 0 8
/-- `m[15:0]` (R157). -/
def valHalf (m : Word) : BitVec (8 * 2) := m.extractLsb' 0 16
/-- `m` (R158). -/
def valWord (m : Word) : BitVec (8 * 4) := m
/-- `sext_64(m)` (R72, R159). -/
def valDouble (m : Word) : BitVec (8 * 8) := m.signExtend 64

/-! ## The instructions -/

/-- lb, execute stage (R150, R151). -/
def executeLb (r : Rec) (s : State) : Rec × State := executeLoad r s
/-- lb, memory stage (R150, R151). -/
def memoryLb (s : State) : State := memoryLoad 1 extByte s
/-- lb rd, imm(rs1) (R151). -/
def execLb (rd rs1 : Reg) (imm : Word) (s : State) : Host.Outcome State Fault Refusal :=
  runAlone (.lb rd rs1 imm) executeLb memoryLb s

/-- lh, execute stage (R150, R152). -/
def executeLh (r : Rec) (s : State) : Rec × State := executeLoad r s
/-- lh, memory stage (R150, R152). -/
def memoryLh (s : State) : State := memoryLoad 2 extHalf s
/-- lh rd, imm(rs1) (R152). -/
def execLh (rd rs1 : Reg) (imm : Word) (s : State) : Host.Outcome State Fault Refusal :=
  runAlone (.lh rd rs1 imm) executeLh memoryLh s

/-- lw, execute stage (R150, R153). -/
def executeLw (r : Rec) (s : State) : Rec × State := executeLoad r s
/-- lw, memory stage (R150, R153). -/
def memoryLw (s : State) : State := memoryLoad 4 extWord s
/-- lw rd, imm(rs1) (R153). -/
def execLw (rd rs1 : Reg) (imm : Word) (s : State) : Host.Outcome State Fault Refusal :=
  runAlone (.lw rd rs1 imm) executeLw memoryLw s

/-- ld, execute stage (R150, R154). -/
def executeLd (r : Rec) (s : State) : Rec × State := executeLoad r s
/-- ld, memory stage (R150, R154). -/
def memoryLd (s : State) : State := memoryLoad 8 extDouble s
/-- ld rd, imm(rs1) (R154). -/
def execLd (rd rs1 : Reg) (imm : Word) (s : State) : Host.Outcome State Fault Refusal :=
  runAlone (.ld rd rs1 imm) executeLd memoryLd s

/-- sb, execute stage (R155, R156). -/
def executeSb (r : Rec) (s : State) : Rec × State := executeStore r s
/-- sb, memory stage (R155, R156). -/
def memorySb (s : State) : State := memoryStore 1 valByte s
/-- sb rs2, imm(rs1) (R156). -/
def execSb (rs1 rs2 : Reg) (imm : Word) (s : State) : Host.Outcome State Fault Refusal :=
  runAlone (.sb rs1 rs2 imm) executeSb memorySb s

/-- sh, execute stage (R155, R157). -/
def executeSh (r : Rec) (s : State) : Rec × State := executeStore r s
/-- sh, memory stage (R155, R157). -/
def memorySh (s : State) : State := memoryStore 2 valHalf s
/-- sh rs2, imm(rs1) (R157). -/
def execSh (rs1 rs2 : Reg) (imm : Word) (s : State) : Host.Outcome State Fault Refusal :=
  runAlone (.sh rs1 rs2 imm) executeSh memorySh s

/-- sw, execute stage (R155, R158). -/
def executeSw (r : Rec) (s : State) : Rec × State := executeStore r s
/-- sw, memory stage (R155, R158). -/
def memorySw (s : State) : State := memoryStore 4 valWord s
/-- sw rs2, imm(rs1) (R158). -/
def execSw (rs1 rs2 : Reg) (imm : Word) (s : State) : Host.Outcome State Fault Refusal :=
  runAlone (.sw rs1 rs2 imm) executeSw memorySw s

/-- sd, execute stage (R155, R159). -/
def executeSd (r : Rec) (s : State) : Rec × State := executeStore r s
/-- sd, memory stage (R155, R159). -/
def memorySd (s : State) : State := memoryStore 8 valDouble s
/-- sd rs2, imm(rs1) (R159). -/
def execSd (rs1 rs2 : Reg) (imm : Word) (s : State) : Host.Outcome State Fault Refusal :=
  runAlone (.sd rs1 rs2 imm) executeSd memorySd s

end Sys2Proof.Machine
end

