-- ==== Sys2Proof/Machine/UpperJump.lean ====
section
/-! DEFINITION. Upper immediates and jumps: lui, auipc, jal, jalr (44_upper_jump.md). -/

namespace Sys2Proof.Machine

/-- lui, execute stage: `Z <- (B << 12) mod 2^32` (R180). -/
def executeLui (r : Rec) (s : State) : Rec × State := (r, s.setZ (s.bufB <<< 12))
/-- lui rd, imm20 (R180). -/
def execLui (rd : Reg) (imm : Word) (s : State) : Host.Outcome State Fault Refusal :=
  runAlone (.lui rd imm) executeLui memoryPass s

/-- auipc, execute stage: `Z <- (fpc + (B << 12)) mod 2^32` (R181). -/
def executeAuipc (r : Rec) (s : State) : Rec × State := (r, s.setZ (r.fpc + (s.bufB <<< 12)))
/-- auipc rd, imm20 (R181). -/
def execAuipc (rd : Reg) (imm : Word) (s : State) : Host.Outcome State Fault Refusal :=
  runAlone (.auipc rd imm) executeAuipc memoryPass s

/-- jal, execute stage: `Z <- fpc + 4 ; M <- fpc + B` (R182). -/
def executeJal (r : Rec) (s : State) : Rec × State := (r, (s.setZ r.next).setM (r.fpc + s.bufB))
/-- jal rd, offset (R182). -/
def execJal (rd : Reg) (imm : Word) (s : State) : Host.Outcome State Fault Refusal :=
  runAlone (.jal rd imm) executeJal memoryPass s

/-- jalr, execute stage: `Z <- fpc + 4 ; M <- (A + B) AND 0xFFFFFFFE` (R183). -/
def executeJalr (r : Rec) (s : State) : Rec × State := (r, (s.setZ r.next).setM s.jalrTarget)
/-- jalr rd, imm(rs1) (R183). -/
def execJalr (rd rs1 : Reg) (imm : Word) (s : State) : Host.Outcome State Fault Refusal :=
  runAlone (.jalr rd rs1 imm) executeJalr memoryPass s

end Sys2Proof.Machine
end

