-- ==== Sys2Proof/Machine/Stages.lean ====
section
/-! DEFINITION. The stage procedures `Execute(i)` and `Memory(i)` of an in-flight instruction (R201):
each arm is the instruction's own stage procedure, the one its meaning in `exec` is built of. -/

namespace Sys2Proof.Machine

/-- `Execute(i)`: writes Z, M for stores and jumps, and `taken` for branches (R201). -/
def executeStage (r : Rec) (s : State) : Rec × State :=
  match r.instr with
  | .add _ _ _ => executeAdd r s
  | .sub _ _ _ => executeSub r s
  | .sll _ _ _ => executeSll r s
  | .slt _ _ _ => executeSlt r s
  | .xor _ _ _ => executeXor r s
  | .srl _ _ _ => executeSrl r s
  | .sra _ _ _ => executeSra r s
  | .or _ _ _ => executeOr r s
  | .and _ _ _ => executeAnd r s
  | .mul _ _ _ => executeMul r s
  | .div _ _ _ => executeDiv r s
  | .rem _ _ _ => executeRem r s
  | .addi _ _ _ => executeAddi r s
  | .andi _ _ _ => executeAndi r s
  | .ori _ _ _ => executeOri r s
  | .lb _ _ _ => executeLb r s
  | .lh _ _ _ => executeLh r s
  | .lw _ _ _ => executeLw r s
  | .ld _ _ _ => executeLd r s
  | .jalr _ _ _ => executeJalr r s
  | .sb _ _ _ => executeSb r s
  | .sh _ _ _ => executeSh r s
  | .sw _ _ _ => executeSw r s
  | .sd _ _ _ => executeSd r s
  | .beq _ _ _ => executeBeq r s
  | .bne _ _ _ => executeBne r s
  | .blt _ _ _ => executeBlt r s
  | .bge _ _ _ => executeBge r s
  | .lui _ _ => executeLui r s
  | .auipc _ _ => executeAuipc r s
  | .jal _ _ => executeJal r s

/-- `Memory(i)`: writes Y; a documented no-op but for loads and stores (R201). -/
def memoryStage (r : Rec) (s : State) : State :=
  match r.instr with
  | .add _ _ _ => memoryPass s
  | .sub _ _ _ => memoryPass s
  | .sll _ _ _ => memoryPass s
  | .slt _ _ _ => memoryPass s
  | .xor _ _ _ => memoryPass s
  | .srl _ _ _ => memoryPass s
  | .sra _ _ _ => memoryPass s
  | .or _ _ _ => memoryPass s
  | .and _ _ _ => memoryPass s
  | .mul _ _ _ => memoryPass s
  | .div _ _ _ => memoryPass s
  | .rem _ _ _ => memoryPass s
  | .addi _ _ _ => memoryPass s
  | .andi _ _ _ => memoryPass s
  | .ori _ _ _ => memoryPass s
  | .lb _ _ _ => memoryLb s
  | .lh _ _ _ => memoryLh s
  | .lw _ _ _ => memoryLw s
  | .ld _ _ _ => memoryLd s
  | .jalr _ _ _ => memoryPass s
  | .sb _ _ _ => memorySb s
  | .sh _ _ _ => memorySh s
  | .sw _ _ _ => memorySw s
  | .sd _ _ _ => memorySd s
  | .beq _ _ _ => memoryPass s
  | .bne _ _ _ => memoryPass s
  | .blt _ _ _ => memoryPass s
  | .bge _ _ _ => memoryPass s
  | .lui _ _ => memoryPass s
  | .auipc _ _ => memoryPass s
  | .jal _ _ => memoryPass s

end Sys2Proof.Machine
end

