-- ==== Sys2Proof/Machine/Hazard.lean ====
section
/-! DEFINITION. The Destination Window, hazard detection, stall counts and the forwarding table
(46_hazard_forwarding.md, 45_fetch_decode_pipeline.md R208, R211). -/

namespace Sys2Proof.Machine

/-- The window's shift, once per step: the oldest entry is lost, NONE enters (R208). -/
def Window.shift (w : Window) : Window := ⟨w.w1, w.w2, w.w3, w.w4, none⟩

/-- `win[4] <- d` (R209, R216). -/
def Window.setNewest (w : Window) (d : Option Reg) : Window := { w with w4 := d }

/-- Where a match was found: the producer is in X (index 3) or in W (index 2) (R250, R251). -/
inductive Match where
  | none | index3 | index2
  deriving DecidableEq, Repr

/-- `match(r)` of one source field: NONE and x0 never match, index 3 wins over index 2 (R251). -/
def Window.matchSource (w : Window) (src : Option Reg) : Match :=
  match src with
  | Option.none => .none
  | some r =>
    if r = 0#5 then .none
    else if w.w3 = some r then .index3
    else if w.w2 = some r then .index2
    else .none

/-- What detection answers: the stall need and the forwarding entries it adds, or a missing producer. -/
inductive Detection where
  | need (n : Nat) (entries : List FwdEntry)
  | stuck (f : Fault)
  deriving DecidableEq, Repr

/-- Two operands treated independently: the larger need, both operands' entries in order (R252, R256). -/
def Detection.merge (a b : Detection) : Detection :=
  match a, b with
  | .stuck f, _ => .stuck f
  | .need _ _, .stuck f => .stuck f
  | .need n es, .need m fs => .need (max n m) (es ++ fs)

/-- One operand without forwarding: index 3 needs 2 stalls, index 2 needs 1 (R252). -/
def detectStall (w : Window) (src : Option Reg) : Detection :=
  match w.matchSource src with
  | .none => .need 0 []
  | .index3 => .need 2 []
  | .index2 => .need 1 []

/-- One operand with forwarding: index 3 stalls 1 for a load and forwards Z else; index 2 forwards Y
(R253 to R256). -/
def detectForward (s : State) (i : Rec) (src : Option Reg) (dst : FwdDst) : Detection :=
  match s.win.matchSource src with
  | .none => .need 0 []
  | .index3 =>
    match s.slotX with
    | none => .stuck (.producerMissing .Z)
    | some p =>
      if p.instr.isLoad then .need 1 []
      else .need 0 [{ pSeq := p.seq, cSeq := i.seq, src := .Z, dst := dst }]
  | .index2 =>
    match s.slotW with
    | none => .stuck (.producerMissing .Y)
    | some p => .need 0 [{ pSeq := p.seq, cSeq := i.seq, src := .Y, dst := dst }]

/-- `HazardDetect(i, first)`: rs1 with buffer A, then rs2 with buffer B (R250 to R256). The flag `first`
selects nothing: promotion calls it with forwarding enabled only (R250). DEDUCED, safe (log entry 18). -/
def hazardDetect (i : Rec) (s : State) : Detection :=
  if s.fwdOn then
    (detectForward s i i.instr.rs1 .A).merge (detectForward s i i.instr.rs2 .B)
  else
    (detectStall s.win i.instr.rs1).merge (detectStall s.win i.instr.rs2)

/-- `ftab <- ftab + entries` (R256). -/
def State.addForwards (s : State) (es : List FwdEntry) : State := { s with ftab := s.ftab ++ es }

/-- Parking a stalled instruction: `bubble <- n ; S <- i ; emit(STALL n)`, and its forwarding entries
are removed (R211, R257). -/
def park (i : Rec) (n : Nat) (s : State) : State :=
  { s with
    bubble := n, slotS := some i, ftab := s.ftab.filter fun e => e.cSeq ≠ i.seq,
    trace := s.trace ++ [.stall n] }

/-- `D <- i ; win[4] <- effdest(i)` (R209, R216). -/
def enterD (i : Rec) (s : State) : State :=
  { s with slotD := some i, win := s.win.setNewest i.instr.effDest }

/-- The value of an entry's source buffer (R259). -/
def State.fwdValue (s : State) (src : FwdSrc) : Word :=
  match src with
  | .Z => s.bufZ
  | .Y => s.bufY

/-- One entry applied: `dst <- src ; emit(FWD src->dst)` (R259). -/
def applyEntry (s : State) (e : FwdEntry) : State :=
  match e.dst with
  | .A => (s.setA (s.fwdValue e.src)).emit (.fwd e)
  | .B => (s.setB (s.fwdValue e.src)).emit (.fwd e)

/-- Sub-step 7: every entry in the order created, then the table is emptied (R217, R259). -/
def applyForwards (s : State) : State := { s.ftab.foldl applyEntry s with ftab := [] }

end Sys2Proof.Machine
end

