-- ==== Sys2Proof/Machine/Predictor.lean ====
section
/-! DEFINITION. The branch predictor: what decode assumes, redirect at decode, resolution and flush at
execute (47_branch_predictor.md, 45_fetch_decode_pipeline.md R207, R209). -/

namespace Sys2Proof.Machine

/-- Does decode redirect this instruction? jal always, a conditional branch when the predictor is
enabled and its bit says taken (R281 to R283). -/
def State.predictsTaken (s : State) (i : Instr) : Bool :=
  i.isJal || (i.isBranch && s.predOn && s.predBit)

/-- Prediction at the first decode: `pred_taken <- 1 ; pc <- fpc + imm` when predicted taken (R209). -/
def predictAtDecode (i : Rec) (s : State) : Rec × State :=
  if s.predictsTaken i.instr then ({ i with predTaken := true }, s.setPc i.target) else (i, s)

/-- The flush: `pc <- t ; F <- empty ; emit(FLUSH)` (R207, R285, R288). -/
def State.flushTo (s : State) (t : Word) : State :=
  { s with pc := t, slotF := none, trace := s.trace ++ [.flush] }

/-- The true target of a resolved branch (R207, R285). -/
def Rec.outcomePc (i : Rec) : Word := if i.taken = some true then i.target else i.next

/-- `if pred_on then pred_bit <- i.taken` (R207, R286). -/
def State.updatePredictor (s : State) (i : Rec) : State :=
  { s with predBit := if s.predOn then i.taken == some true else s.predBit }

/-- Does the executed branch disagree with what decode assumed (R207, R284)? -/
def Rec.mispredicted (i : Rec) : Bool := i.instr.isBranch && i.taken != some i.predTaken

/-- Control resolution at execute in pipelined mode; the Bool is the step's local `flush` (R207). -/
def resolveControl (i : Rec) (s : State) : State × Bool :=
  if i.mispredicted then ((s.updatePredictor i).flushTo i.outcomePc, true)
  else if i.instr.isJalr then (s.flushTo s.bufM, true)
  else (s, false)

end Sys2Proof.Machine
end

