-- ==== Sys2Proof/Machine/Pipeline.lean ====
section
/-! DEFINITION. One pipelined step: the eight sub-steps, in order (45_fetch_decode_pipeline.md R202 to R218). -/

namespace Sys2Proof.Machine

/-- What a sub-step answers: the step goes on, the step ends here, or a producer is missing. -/
inductive SubStep where
  | go (s : State)
  | stop (s : State)
  | stuck (f : Fault)

/-- The next sub-step sees every effect of the ones before it (R202). -/
def SubStep.andThen (a : SubStep) (k : State → SubStep) : SubStep :=
  match a with
  | .go s => k s
  | .stop s => .stop s
  | .stuck f => .stuck f

/-- The step's outcome. -/
def SubStep.outcome (a : SubStep) : Host.Outcome State Fault Refusal :=
  match a with
  | .go s => .next s
  | .stop s => .next s
  | .stuck f => .fault f

/-- All five slots are empty and no stall is pending (R204, R215). -/
def State.drained (s : State) : Bool :=
  s.slotF.isNone && s.slotD.isNone && s.slotX.isNone && s.slotW.isNone && s.slotS.isNone &&
    s.bubble == 0

/-- Sub-step 1: writeback of W, if present, then the completion check (R203, R204). -/
def subWriteback (s : State) : SubStep :=
  match s.slotW with
  | none => .go s
  | some i =>
    let s1 := ((writeback i s).emit (.wb i)).emptyW
    if s1.drained then .stop s1.finish else .go s1

/-- Sub-step 2: memory stage of X, which moves to W (R205). -/
def subMemory (s : State) : State :=
  match s.slotX with
  | none => s
  | some i => ((memoryStage i s).emit (.mem i)).moveToW i

/-- Sub-step 3: execute stage of D, which moves to X, and control resolution; the Bool is `flush`
(R206, R207). -/
def subExecute (s : State) : State × Bool :=
  match s.slotD with
  | none => (s, false)
  | some i =>
    let r := executeStage i s
    resolveControl r.1 ((r.2.emit (.ex r.1)).moveToX r.1)

/-- Sub-step 4, first part: the window shifts, whether or not there is a word to decode (R208). -/
def shiftWindow (s : State) : State := { s with win := s.win.shift }

/-- What decode does with a hazard answer: park on a stall, enter D else (R209, R211). -/
def placeDecoded (i : Rec) (s : State) : SubStep :=
  match hazardDetect i s with
  | .stuck f => .stuck f
  | .need n es =>
    if n > 0 then .go (park i n (s.addForwards es)) else .go (enterD i (s.addForwards es))

/-- Decode of a good word: record, operand read, prediction, hazard detection (R209). -/
def decodeInstr (i : Instr) (a : Word) (s : State) : SubStep :=
  let s1 := s.countDecode
  let r := newRec i a s1.seqCtr
  let p := predictAtDecode r ((readOperands i s1).emit (.id r))
  placeDecoded p.1 p.2

/-- Sub-step 4, second part: decode of the word in F, if present; a decode error ends the step (R209). -/
def subDecode (s : State) : SubStep :=
  match s.slotF with
  | none => .go s
  | some f =>
    let s1 := s.emptyF
    match decode f.word with
    | .unknownOpcode => .stop (s1.raiseFatal .unknownOpcode f.word)
    | .unknownFunct => .stop (s1.raiseFatal .unknownFunct f.word)
    | .ok i => decodeInstr i f.fpc s1

/-- A fetched word enters F and pc advances by 4 (R212, R222). -/
def fetchWord (w : Word) (s : State) : State :=
  { s with slotF := some { word := w, fpc := s.pc }, pc := s.pc + 4#32, trace := s.trace ++ [.ifAt s.pc] }

/-- Sub-step 5: fetch, withheld on a flush or a pending bubble; finding nothing with an empty pipeline
completes the run (R212 to R215). -/
def subFetch (flush : Bool) (s : State) : SubStep :=
  if flush then .go (s.emit .ifWithheld)
  else if s.bubble > 0 then .go (s.emit .bubble)
  else
    match s.ifetch s.pc with
    | some w => .go (fetchWord w s)
    | none =>
      let s1 := s.emit .ifNone
      if s1.drained then .stop s1.finish else .go s1

/-- Sub-step 6: promotion of S into D when the bubble counter is zero, with the operands re-read and,
under forwarding, detection run again (R216, R258). -/
def subPromote (s : State) : SubStep :=
  match s.slotS with
  | none => .go s
  | some i =>
    if s.bubble = 0 then
      let s1 := (enterD i (readOperands i.instr s).emptyS).emit (.promote i)
      if s1.fwdOn then
        match hazardDetect i s1 with
        | .stuck f => .stuck f
        | .need _ es => .go (s1.addForwards es)
      else .go s1
    else .go s

/-- Sub-step 8: `bubble <- max(0, bubble - 1)` (R218). -/
def decrementBubble (s : State) : State := { s with bubble := s.bubble - 1 }

/-- Sub-steps 4 to 8, after execute (R202). -/
def pipelineBack (flush : Bool) (s : State) : SubStep :=
  (subDecode (shiftWindow s)).andThen fun s4 =>
    (subFetch flush s4).andThen fun s5 =>
      (subPromote s5).andThen fun s6 =>
        .go (decrementBubble (applyForwards s6))

/-- `pipelined_step()` (R202). -/
def pipelinedStep (s : State) : Host.Outcome State Fault Refusal :=
  ((subWriteback s.beginStep).andThen fun s1 =>
    let e := subExecute (subMemory s1)
    pipelineBack e.2 e.1).outcome

end Sys2Proof.Machine
end

