-- ==== Sys2Proof/Machine/Phases.lean ====
section
/-! DEFINITION. The non-pipelined machine: one phase per step (45_fetch_decode_pipeline.md R221 to R226). -/

namespace Sys2Proof.Machine

/-- Phase FETCH (R222). -/
def phaseFetch (s : State) : Host.Outcome State Fault Refusal :=
  match s.ifetch s.pc with
  | none => .next (s.emit .ifNone).finish
  | some w => .next ((fetchWord w s).setPhase .decode)

/-- Phase DECODE of a good word: no prediction, no redirect, no hazard detection (R223). -/
def phaseDecodeInstr (i : Instr) (a : Word) (s : State) : State :=
  let s1 := s.countDecode
  let r := newRec i a s1.seqCtr
  (((readOperands i s1).emit (.id r)).putD r).setPhase .execute

/-- Phase DECODE (R223). On a decode error the phase stays DECODE and F has been emptied. -/
def phaseDecode (s : State) : Host.Outcome State Fault Refusal :=
  match s.slotF with
  | none => .fault (.slotEmpty .decode)
  | some f =>
    let s1 := s.emptyF
    match decode f.word with
    | .unknownOpcode => .next (s1.raiseFatal .unknownOpcode f.word)
    | .unknownFunct => .next (s1.raiseFatal .unknownFunct f.word)
    | .ok i => .next (phaseDecodeInstr i f.fpc s1)

/-- Phase EXECUTE (R224). -/
def phaseExecute (s : State) : Host.Outcome State Fault Refusal :=
  match s.slotD with
  | none => .fault (.slotEmpty .execute)
  | some i =>
    let r := executeStage i s
    .next ((branchAtExecute r.1 ((r.2.emit (.ex r.1)).moveToX r.1)).setPhase .memory)

/-- Phase MEMORY (R225). -/
def phaseMemory (s : State) : Host.Outcome State Fault Refusal :=
  match s.slotX with
  | none => .fault (.slotEmpty .memory)
  | some i =>
    .next ((((memoryStage i s).emit (.mem i)).moveToW i).setPhase .writeback)

/-- Phase WRITEBACK (R226). -/
def phaseWriteback (s : State) : Host.Outcome State Fault Refusal :=
  match s.slotW with
  | none => .fault (.slotEmpty .writeback)
  | some i =>
    .next ((jumpAtWriteback i ((writeback i s).emit (.wb i))).emptyW.setPhase .fetch)

/-- `phase_step()` (R221). -/
def phaseStep (s : State) : Host.Outcome State Fault Refusal :=
  let s0 := s.beginStep
  match s0.phase with
  | .fetch => phaseFetch s0
  | .decode => phaseDecode s0
  | .execute => phaseExecute s0
  | .memory => phaseMemory s0
  | .writeback => phaseWriteback s0

end Sys2Proof.Machine
end

