-- ==== Sys2Proof/Machine/Step.lean ====
section
/-! DEFINITION. `step()`: one clock cycle in pipelined mode, one phase in non-pipelined mode (R200). -/

namespace Sys2Proof.Machine

/-- `step()` (R200): nothing once `done` or `fatal` is set. -/
def step (s : State) : Host.Outcome State Fault Refusal :=
  if s.halted then .next s
  else if s.params.cfgPipelined then pipelinedStep s
  else phaseStep s

/-- `s` with the word placed where `step` fetches next: the machine idle, `IMEM` mapping pc to the word,
and `TERM_ADDR`, if it was pc, moved to the address after the word, as a loader would set it (R7, R61,
R62). The next step fetches the word and the fifth retires it, in both modes, one step being one phase
or one cycle (R14). DESIGN CHOICE, safe (log entry 4). -/
def State.withFetchWord (s : State) (nbits w : Nat) : State :=
  { s.idle with
    imem := s.imem.insert s.pc.toNat (BitVec.ofNat 32 (w % 2 ^ nbits))
    params :=
      { s.params with
        termAddr := if s.params.termAddr = s.pc then s.pc + 4#32 else s.params.termAddr } }

end Sys2Proof.Machine
end

