-- ==== Sys2Proof/Machine/HostOps.lean ====
section
/-! DEFINITION. The host's operations beside `step` and `reset` (10_state.md R45 to R47, R227): loading an
image, `run`, the snapshots, the reset port, and the log of recoverable errors read off the trace. -/

namespace Sys2Proof.Machine

/-- An instruction image from a program's words at a, a + 4, a + 8, … (R61). -/
def IMem.ofWords (a : Nat) (ws : List Word) : IMem :=
  match ws with
  | [] => []
  | w :: rest => (a, w) :: IMem.ofWords (a + 4) rest

/-- A byte image from address and byte pairs, in canonical form (R44, `DMEM_INIT`). -/
def Memory.ofCells (cs : List Host.Cell) : Memory :=
  match cs with
  | [] => []
  | c :: rest => Memory.write (Memory.ofCells rest) c.1 c.2

/-- `n` steps (R200). -/
def stepN (n : Nat) (s : State) : Host.Outcome State Fault Refusal := Host.Core.run Sys2Proof.core n s

/-- `run()` bounded by `fuel` steps: `while done = 0 and fatal = 0 do step()`; `none` when the fuel does
not suffice or a step stops. DOC has no timeout, so `run` itself may diverge (R227, decision D44). DESIGN CHOICE, safe
(log entry 15). -/
def runToEnd (fuel : Nat) (s : State) : Option State :=
  if s.halted then some s
  else
    match fuel with
    | 0 => none
    | k + 1 =>
      match step s with
      | .next s' => runToEnd k s'
      | .fault _ => none
      | .refused _ => none

/-- `run` with that fuel ends in `t`: the steps' number is part of the relation (R227, R338). -/
def runsTo (n : Nat) (s t : State) : Prop := stepN n s = .next t ∧ t.halted = true

/-- Register-file snapshot: x[0..31] (R45). -/
def State.registerSnapshot (s : State) : List Word :=
  (List.range 32).map fun r => s.readReg (BitVec.ofNat 5 r)

/-- Instruction-segment snapshot (R45). -/
def State.imemSnapshot (s : State) : IMem := s.imem

/-- Data- or stack-segment snapshot (R45). -/
def State.segmentSnapshot (s : State) (r : Region) : Memory := s.space r

/-- Diagnostic output: the events of the last step (R45, R47). -/
def State.events (s : State) : List Event := s.trace

/-- The inputs sampled while `rst` = 1, and `rst` (R46). The images and windows are the loader's. DESIGN CHOICE,
safe (log entry 16). -/
structure Ports where
  /-- Synchronous reset. -/
  rst : Bool
  /-- Every parameter, `cfg_*_i`, `sp_init_i`, `gp_init_i`, `pc_reset_i`, `term_addr_i` among them. -/
  params : Params
  /-- The loader's instruction image. -/
  imem : IMem
  /-- The loader's data image. -/
  data : Memory
  /-- The loader's stack image. -/
  stack : Memory
  deriving DecidableEq, Repr

/-- One rising clock edge: the reset state when `rst` = 1, else one step (R14, R46, R330). -/
def clockEdge (p : Ports) (s : State) : Host.Outcome State Fault Refusal :=
  if p.rst then .next (State.resetWith p.params p.imem p.data p.stack) else step s

/-- The recoverable errors among a step's events (R301). -/
def errorsOf (es : List Event) : List (ErrCode × Word) :=
  es.filterMap fun e =>
    match e with
    | .err c info => some (c, info)
    | .wb _ | .mem _ | .ex _ | .id _ | .ifAt _ | .ifNone | .ifWithheld | .bubble => none
    | .stall _ | .promote _ | .fwd _ | .flush | .done | .fatal _ _ => none

/-- The sequence of recoverable errors logged in `n` steps: "the full sequence of events is in the
trace" (R301). A step of a halted machine produces no event. -/
def errorLog (n : Nat) (s : State) : List (ErrCode × Word) :=
  match n with
  | 0 => []
  | k + 1 =>
    if s.halted then []
    else
      match step s with
      | .next s' => errorsOf s'.trace ++ errorLog k s'
      | .fault _ => []
      | .refused _ => []

end Sys2Proof.Machine
end

