-- ==== Sys2Proof/Safety.lean ====
section
/-! DEFINITION. What a good state and a safe run are, in the terms claims use: the invariant of both modes
(R21, R39, R43, R221, R262, R289) and clean runs (R39). -/

namespace Sys2Proof.Safety

open Sys2Proof.Machine

/-- The effective destination of a slot's occupant; NONE if the slot is empty (R43 item 5). -/
def slotDest (r : Option Rec) : Option Reg :=
  match r with
  | none => none
  | some i => i.instr.effDest

/-- i really reads register r: a source field of its format names it, and it is not x0 (R251). -/
def Reads (i : Instr) (r : Reg) : Prop := r ≠ 0#5 ∧ (i.rs1 = some r ∨ i.rs2 = some r)

/-- i depends on the instruction in a slot: it reads its effective destination (R251). -/
def DependsOnSlot (i : Instr) (slot : Option Rec) : Prop := ∃ r, Reads i r ∧ slotDest slot = some r

/-- The instructions in flight that have been decoded, oldest first: W, X, then D or S (R43 item 7). -/
def inFlight (s : State) : List Rec :=
  s.slotW.toList ++ s.slotX.toList ++ s.slotD.toList ++ s.slotS.toList

/-- What decode may have assumed of an instruction: jal is predicted taken; nothing but jal and, with
the predictor enabled, a conditional branch is (R281, R287). -/
def PredictionOk (predOn : Bool) (i : Rec) : Prop :=
  (i.instr.isJal = true → i.predTaken = true) ∧
    (i.predTaken = true → i.instr.isJal = true ∨ (i.instr.isBranch = true ∧ predOn = true))

/-- The state in every mode: slot 0 of the register file holds 0 (R21), the three spaces are in
canonical form, the two terminal bits are never both set (R39), and the error registers hold their
reset values until the first error (R37, R44). -/
structure Base (s : State) : Prop where
  zeroSlot : s.regs[0] = 0#32
  imemWf : IMem.wf s.imem = true
  dataWf : Memory.wf s.data = true
  stackWf : Memory.wf s.stack = true
  oneTerminal : ¬(s.done = true ∧ s.fatal = true)
  noFatal : s.fatal = false → s.fatalCode = 0#8 ∧ s.fatalInfo = 0#32
  noError : s.errSeen = false → s.errCode = 0#8 ∧ s.errInfo = 0#32

/-- The pipelined machine between steps, while it runs (R43 items 2 to 5 and 7; R281). DEDUCED,
safe: not claimed of the step that completes a run (log entry 17). `fetchEnded` is
what makes a drained pipeline mean the end of the program (R204): where F, S and X are empty, the
last step attempted its fetch and got nothing. `fetchAhead` is why a decode error leaves pc at the bad
word's address + 4 (R302). `sampled` is R286's "on agreement it already did"; `waited` is why a re-read at promotion finds the producer
retired when nothing is forwarded (R258). -/
structure PipeInv (s : State) : Prop where
  ftabEmpty : s.ftab = []
  parkedAlone : s.slotS ≠ none → s.slotD = none ∧ s.slotF = none
  bubbleParked : 0 < s.bubble → s.slotS ≠ none
  bubbleBound : s.bubble ≤ 2
  newestIsD : s.win.w4 = slotDest s.slotD
  index3IsX : s.win.w3 = slotDest s.slotX
  index2IsW : s.win.w2 = slotDest s.slotW
  programOrder : ((inFlight s).map Rec.seq).Pairwise (· < ·)
  counted : ∀ i ∈ inFlight s, i.seq ≤ s.seqCtr
  predictions : ∀ i ∈ inFlight s, PredictionOk s.predOn i
  fetchEnded : s.slotF = none → s.slotS = none → s.slotX = none →
    s.slotD ≠ none ∨ s.slotW ≠ none → s.ifetch s.pc = none
  fetchAhead : ∀ f, s.slotF = some f → s.pc = f.fpc + 4#32 ∧ s.ifetch f.fpc = some f.word
  sampled : ∀ i, s.slotD = some i ∨ s.slotS = some i → i.instr.isBranch = true →
    s.predOn = true → i.predTaken = s.predBit
  waited : ∀ i, s.slotS = some i → s.fwdOn = false → s.bubble = 0 → ¬DependsOnSlot i.instr s.slotX
  phaseUnused : s.phase = .fetch

/-- Exactly the slot that the next phase consumes is full (R221 to R226). -/
def SlotsOfPhase (s : State) : Prop :=
  match s.phase with
  | .fetch => s.slotF = none ∧ s.slotD = none ∧ s.slotX = none ∧ s.slotW = none
  | .decode => s.slotF ≠ none ∧ s.slotD = none ∧ s.slotX = none ∧ s.slotW = none
  | .execute => s.slotF = none ∧ s.slotD ≠ none ∧ s.slotX = none ∧ s.slotW = none
  | .memory => s.slotF = none ∧ s.slotD = none ∧ s.slotX ≠ none ∧ s.slotW = none
  | .writeback => s.slotF = none ∧ s.slotD = none ∧ s.slotX = none ∧ s.slotW ≠ none

/-- The non-pipelined machine between steps, while it runs: `win`, `ftab`, `bubble`, `pred_bit` and S
keep their reset values (R221, R262, R289), and one instruction is held at a time. -/
structure PhaseInv (s : State) : Prop where
  winEmpty : s.win = Window.empty
  ftabEmpty : s.ftab = []
  noBubble : s.bubble = 0
  predReset : s.predBit = Config.predInit
  notParked : s.slotS = none
  fetchAhead : ∀ f, s.slotF = some f → s.pc = f.fpc + 4#32 ∧ s.ifetch f.fpc = some f.word
  slots : SlotsOfPhase s

/-- The invariant: the base in every state, the mode's own part while the machine runs, and a completed
run has nothing to fetch (R204, R214, R222). -/
structure Inv (s : State) : Prop where
  base : Base s
  doneEnded : s.done = true → s.ifetch s.pc = none
  pipelined : s.halted = false → s.params.cfgPipelined = true → PipeInv s
  phased : s.halted = false → s.params.cfgPipelined = false → PhaseInv s

/-- No recoverable error has been logged and no fatal one raised: "a claim about a run that wants to
exclude defaulted results takes `err_seen = 0` at the end as a premise" (R39). -/
def Clean (s : State) : Prop := s.errSeen = false ∧ s.fatal = false

/-- A safe run of n steps: it reaches a state by next states only, and that state is clean. -/
def SafeRun (n : Nat) (s t : State) : Prop := stepN n s = .next t ∧ Clean t

end Sys2Proof.Safety
end

