-- ==== Sys2Proof/Certificates/Slice0/Obligations.lean ====
section
/-! DEFINITION. The statements for the provers. The predicates they share stand first, under
`Sys2Proof.Claims`; they are written from the spec's words, not from the model's definitions. -/

namespace Sys2Proof.Claims

open Sys2Proof.Machine Sys2Proof.Safety

/-! ## Encoding -/

/-- The 31 rows of R102: match and mask. -/
def opcodeRows : List (Word × Word) :=
  [(0x00000033#32, 0xFE00707F#32), (0x40000033#32, 0xFE00707F#32), (0x00001033#32, 0xFE00707F#32),
   (0x00002033#32, 0xFE00707F#32), (0x00004033#32, 0xFE00707F#32), (0x00005033#32, 0xFE00707F#32),
   (0x40005033#32, 0xFE00707F#32), (0x00006033#32, 0xFE00707F#32), (0x00007033#32, 0xFE00707F#32),
   (0x02000033#32, 0xFE00707F#32), (0x02004033#32, 0xFE00707F#32), (0x02006033#32, 0xFE00707F#32)] ++
  [(0x00000013#32, 0x0000707F#32), (0x00007013#32, 0x0000707F#32), (0x00006013#32, 0x0000707F#32),
   (0x00000003#32, 0x0000707F#32), (0x00001003#32, 0x0000707F#32), (0x00002003#32, 0x0000707F#32),
   (0x00003003#32, 0x0000707F#32), (0x00000067#32, 0x0000707F#32)] ++
  [(0x00000023#32, 0x0000707F#32), (0x00001023#32, 0x0000707F#32), (0x00002023#32, 0x0000707F#32),
   (0x00003023#32, 0x0000707F#32), (0x00000063#32, 0x0000707F#32), (0x00001063#32, 0x0000707F#32),
   (0x00004063#32, 0x0000707F#32), (0x00005063#32, 0x0000707F#32), (0x00000037#32, 0x0000007F#32),
   (0x00000017#32, 0x0000007F#32), (0x0000006F#32, 0x0000007F#32)]

/-- The words that spell one instruction are those with `w AND mask = mtch`, and `build` reads its
operands off the word (R102). -/
def Spells (mask mtch : Word) (build : Word → Instr) : Prop :=
  ∀ w : Word, decode w = .ok (build w) ↔ w &&& mask = mtch

/-- R format operands (R92). -/
def rWord (c : Reg → Reg → Reg → Instr) (w : Word) : Instr :=
  c (w.extractLsb' 7 5) (w.extractLsb' 15 5) (w.extractLsb' 20 5)
/-- I format operands (R93). -/
def iWord (c : Reg → Reg → Word → Instr) (w : Word) : Instr :=
  c (w.extractLsb' 7 5) (w.extractLsb' 15 5) ((w.extractLsb' 20 12).signExtend 32)
/-- S format operands (R94). -/
def sWord (c : Reg → Reg → Word → Instr) (w : Word) : Instr :=
  c (w.extractLsb' 15 5) (w.extractLsb' 20 5)
    ((w.extractLsb' 25 7 ++ w.extractLsb' 7 5 : BitVec 12).signExtend 32)
/-- B format operands (R95). -/
def bWord (c : Reg → Reg → Word → Instr) (w : Word) : Instr :=
  c (w.extractLsb' 15 5) (w.extractLsb' 20 5)
    ((w.extractLsb' 31 1 ++ w.extractLsb' 7 1 ++ w.extractLsb' 25 6 ++ w.extractLsb' 8 4 ++ 0#1 :
      BitVec 13).signExtend 32)
/-- U format operands (R96). -/
def uWord (c : Reg → Word → Instr) (w : Word) : Instr :=
  c (w.extractLsb' 7 5) ((w.extractLsb' 12 20).signExtend 32)
/-- UJ format operands (R97). -/
def ujWord (c : Reg → Word → Instr) (w : Word) : Instr :=
  c (w.extractLsb' 7 5)
    ((w.extractLsb' 31 1 ++ w.extractLsb' 12 8 ++ w.extractLsb' 20 1 ++ w.extractLsb' 21 10 ++ 0#1 :
      BitVec 21).signExtend 32)

/-! ## Frames of an instruction run alone -/

/-- Register rd reads v afterwards, unless it is x0, which reads 0; every other register is unchanged. -/
def WritesReg (s t : State) (rd : Reg) (v : Word) : Prop :=
  ∀ r, t.readReg r = if r = rd ∧ rd ≠ 0#5 then v else s.readReg r

/-- Every register is unchanged. -/
def RegsKept (s t : State) : Prop := ∀ r, t.readReg r = s.readReg r

/-- Every byte of the data and stack spaces, and the instruction space, are unchanged. -/
def MemoryKept (s t : State) : Prop :=
  t.imem = s.imem ∧ ∀ g a, t.readByte g a = s.readByte g a

/-- Slots, window, forwarding table, bubble, predictor, phase, terminal bits and parameters are unchanged. -/
def ControlKept (s t : State) : Prop :=
  t.slotF = s.slotF ∧ t.slotD = s.slotD ∧ t.slotX = s.slotX ∧ t.slotW = s.slotW ∧
  t.slotS = s.slotS ∧ t.win = s.win ∧ t.ftab = s.ftab ∧ t.bubble = s.bubble ∧
  t.predBit = s.predBit ∧ t.phase = s.phase ∧ t.done = s.done ∧ t.fatal = s.fatal ∧
  t.fatalCode = s.fatalCode ∧ t.fatalInfo = s.fatalInfo ∧ t.params = s.params

/-- No recoverable error was logged: the error registers are unchanged. -/
def ErrorsKept (s t : State) : Prop :=
  t.errSeen = s.errSeen ∧ t.errCode = s.errCode ∧ t.errInfo = s.errInfo

/-- `log(code, info)` was the last error (R301), the code by its number (R307). -/
def Logged (t : State) (code : BitVec 8) (info : Word) : Prop :=
  t.errSeen = true ∧ t.errCode = code ∧ t.errInfo = info

/-- The five stage buffers. -/
def Buffers (t : State) (a b z y m : Word) : Prop :=
  t.bufA = a ∧ t.bufB = b ∧ t.bufZ = z ∧ t.bufY = y ∧ t.bufM = m

/-- The decode counter counted one instruction, and the last event is its writeback (R40, R226). -/
def Retired (s t : State) (i : Instr) (taken : Option Bool) : Prop :=
  t.seqCtr = s.seqCtr + 1 ∧
  t.trace =
    [.wb { instr := i, fpc := s.pc, seq := s.seqCtr + 1, predTaken := false, taken := taken }]

/-- The effect of an instruction that writes v to rd and goes on: operands a and b in A and B, v in Z
and Y, M, memory and control unchanged, pc advanced by 4. -/
def WritesResult (i : Instr) (s t : State) (rd : Reg) (a b v : Word) : Prop :=
  WritesReg s t rd v ∧ t.pc = s.pc + 4#32 ∧ Buffers t a b v v s.bufM ∧
  MemoryKept s t ∧ ControlKept s t ∧ Retired s t i none

/-- An R-format instruction computes f of its two registers, logging nothing (R120). -/
def ComputesR (c : Reg → Reg → Reg → Instr) (f : Word → Word → Word) : Prop :=
  ∀ (rd rs1 rs2 : Reg) (s : State), ∃ t,
    exec (c rd rs1 rs2) s = .next t ∧
    WritesResult (c rd rs1 rs2) s t rd (s.readReg rs1) (s.readReg rs2)
      (f (s.readReg rs1) (s.readReg rs2)) ∧ ErrorsKept s t

/-- An I-format ALU instruction computes f of its register and immediate, logging nothing (R140). -/
def ComputesI (c : Reg → Reg → Word → Instr) (f : Word → Word → Word) : Prop :=
  ∀ (rd rs1 : Reg) (imm : Word) (s : State), ∃ t,
    exec (c rd rs1 imm) s = .next t ∧
    WritesResult (c rd rs1 imm) s t rd (s.readReg rs1) imm (f (s.readReg rs1) imm) ∧
    ErrorsKept s t

/-- div or rem: as `ComputesR`, and `log(E_DIV_ZERO, fpc)` exactly when the divisor is 0 (R304). -/
def ComputesDivide (c : Reg → Reg → Reg → Instr) (f : Params → Word → Word → Word) : Prop :=
  ∀ (rd rs1 rs2 : Reg) (s : State), ∃ t,
    exec (c rd rs1 rs2) s = .next t ∧
    WritesResult (c rd rs1 rs2) s t rd (s.readReg rs1) (s.readReg rs2)
      (f s.params (s.readReg rs1) (s.readReg rs2)) ∧
    (s.readReg rs2 = 0#32 → Logged t 5#8 s.pc) ∧ (s.readReg rs2 ≠ 0#32 → ErrorsKept s t)

/-! ## Memory -/

/-- The n-byte access at a lies in window g, and a routes to g (R64, R65). -/
def InWindow (p : Params) (g : Region) (a : Word) (n : Nat) : Prop :=
  match g with
  | .data => p.dataLo.toNat ≤ a.toNat ∧ a.toNat + n - 1 ≤ p.dataHi.toNat
  | .stack =>
    ¬(p.dataLo.toNat ≤ a.toNat ∧ a.toNat ≤ p.dataHi.toNat) ∧
    p.stackLo.toNat ≤ a.toNat ∧ a.toNat + n - 1 ≤ p.stackHi.toNat

/-- The access is in range (R65). -/
def InRange (p : Params) (a : Word) (n : Nat) : Prop := ∃ g, InWindow p g a n

/-- The four bytes at a, the lowest address least significant (R66). -/
def wordAt (s : State) (g : Region) (a : Nat) : Word :=
  (s.readByte g (a + 3) ++ s.readByte g (a + 2) ++ s.readByte g (a + 1) ++ s.readByte g a : BitVec 32)

/-- An in-range n-byte load of `value` (R150). -/
def LoadsValue (c : Reg → Reg → Word → Instr) (n : Nat) (value : State → Region → Nat → Word) : Prop :=
  ∀ (rd rs1 : Reg) (imm : Word) (s : State) (g : Region),
    InWindow s.params g (s.readReg rs1 + imm) n → ∃ t,
      exec (c rd rs1 imm) s = .next t ∧
      WritesReg s t rd (value s g (s.readReg rs1 + imm).toNat) ∧ t.pc = s.pc + 4#32 ∧
      Buffers t (s.readReg rs1) imm (s.readReg rs1 + imm)
        (value s g (s.readReg rs1 + imm).toNat) s.bufM ∧
      MemoryKept s t ∧ ControlKept s t ∧ ErrorsKept s t ∧ Retired s t (c rd rs1 imm) none

/-- An out-of-range n-byte load: 0 to rd, one log entry, nothing else (R68, R150). -/
def LoadsZeroOutOfRange (c : Reg → Reg → Word → Instr) (n : Nat) : Prop :=
  ∀ (rd rs1 : Reg) (imm : Word) (s : State),
    ¬InRange s.params (s.readReg rs1 + imm) n → ∃ t,
      exec (c rd rs1 imm) s = .next t ∧ WritesReg s t rd 0#32 ∧ t.pc = s.pc + 4#32 ∧
      Buffers t (s.readReg rs1) imm (s.readReg rs1 + imm) 0#32 s.bufM ∧
      MemoryKept s t ∧ ControlKept s t ∧ Logged t 3#8 (s.readReg rs1 + imm) ∧
      Retired s t (c rd rs1 imm) none

/-- The parts of a store's effect that do not depend on the range check (R155). -/
def StoreCommon (i : Instr) (s t : State) (a b ea : Word) : Prop :=
  RegsKept s t ∧ t.pc = s.pc + 4#32 ∧ Buffers t a b ea ea b ∧ t.imem = s.imem ∧
  ControlKept s t ∧ Retired s t i none

/-- An in-range n-byte store: byte k of the value at address ea + k, every other byte of both spaces
as before (R67, R155). The premise is the canonical form of the space stored to (`Safety.Base`). -/
def StoresBytes (c : Reg → Reg → Word → Instr) (n : Nat) (byte : Word → Nat → Byte) : Prop :=
  ∀ (rs1 rs2 : Reg) (imm : Word) (s : State) (g : Region),
    Memory.wf (s.space g) = true → InWindow s.params g (s.readReg rs1 + imm) n → ∃ t,
      exec (c rs1 rs2 imm) s = .next t ∧
      StoreCommon (c rs1 rs2 imm) s t (s.readReg rs1) (s.readReg rs2) (s.readReg rs1 + imm) ∧
      (∀ h a, t.readByte h a =
        if h = g ∧ (s.readReg rs1 + imm).toNat ≤ a ∧ a < (s.readReg rs1 + imm).toNat + n then
          byte (s.readReg rs2) (a - (s.readReg rs1 + imm).toNat)
        else s.readByte h a) ∧
      ErrorsKept s t

/-- An out-of-range n-byte store: no byte changes, one log entry (R69, R155). -/
def StoreSkippedOutOfRange (c : Reg → Reg → Word → Instr) (n : Nat) : Prop :=
  ∀ (rs1 rs2 : Reg) (imm : Word) (s : State),
    ¬InRange s.params (s.readReg rs1 + imm) n → ∃ t,
      exec (c rs1 rs2 imm) s = .next t ∧
      StoreCommon (c rs1 rs2 imm) s t (s.readReg rs1) (s.readReg rs2) (s.readReg rs1 + imm) ∧
      (∀ h a, t.readByte h a = s.readByte h a) ∧ Logged t 4#8 (s.readReg rs1 + imm)

/-- Byte k of a register value. -/
def regByte (v : Word) (k : Nat) : Byte := BitVec.ofNat 8 (v.toNat / 2 ^ (8 * k))

/-- Byte k of the 64-bit sign extension of a register value (R159). -/
def regByte64 (v : Word) (k : Nat) : Byte :=
  if k < 4 then regByte v k else if v.toInt < 0 then 0xFF#8 else 0x00#8

/-! ## Control transfers -/

/-- A branch: pc by the condition, no register and no byte changed, Z the target either way (R170). -/
def BranchesOn (c : Reg → Reg → Word → Instr) (cond : Word → Word → Prop) : Prop :=
  ∀ (rs1 rs2 : Reg) (imm : Word) (s : State), ∃ t tk,
    exec (c rs1 rs2 imm) s = .next t ∧
    (tk = true ↔ cond (s.readReg rs1) (s.readReg rs2)) ∧
    (cond (s.readReg rs1) (s.readReg rs2) → t.pc = s.pc + imm) ∧
    (¬cond (s.readReg rs1) (s.readReg rs2) → t.pc = s.pc + 4#32) ∧
    RegsKept s t ∧ MemoryKept s t ∧ ControlKept s t ∧ ErrorsKept s t ∧
    Buffers t (s.readReg rs1) (s.readReg rs2) (s.pc + imm) (s.pc + imm) s.bufM ∧
    Retired s t (c rs1 rs2 imm) (some tk)

/-- A jump to `target`: the return address to rd (and in Z and Y), the target in M and in pc
(R182, R183). -/
def JumpsTo (i : Instr) (s t : State) (rd : Reg) (a b target : Word) : Prop :=
  WritesReg s t rd (s.pc + 4#32) ∧ t.pc = target ∧
  Buffers t a b (s.pc + 4#32) (s.pc + 4#32) target ∧
  MemoryKept s t ∧ ControlKept s t ∧ ErrorsKept s t ∧ Retired s t i none

/-! ## The step -/

/-- The machine runs, in pipelined mode. -/
def RunsPipelined (s : State) : Prop := s.halted = false ∧ s.params.cfgPipelined = true

/-- The machine runs, in non-pipelined mode, and is about to fetch, with nothing in flight. -/
def ReadyToFetch (s : State) : Prop :=
  s.halted = false ∧ s.params.cfgPipelined = false ∧ s.phase = .fetch ∧
  s.slotF = none ∧ s.slotD = none ∧ s.slotX = none ∧ s.slotW = none

/-- The outcome of a conditional branch on the operands a and b; none for every other instruction
(R171 to R174). -/
def branchOutcome (i : Instr) (a b : Word) : Option Bool :=
  match i with
  | .beq _ _ _ => some (decide (a = b))
  | .bne _ _ _ => some (decide (a ≠ b))
  | .blt _ _ _ => some (decide (a.toInt < b.toInt))
  | .bge _ _ _ => some (decide (b.toInt ≤ a.toInt))
  | .add _ _ _ | .sub _ _ _ | .sll _ _ _ | .slt _ _ _ | .xor _ _ _ | .srl _ _ _ => none
  | .sra _ _ _ | .or _ _ _ | .and _ _ _ | .mul _ _ _ | .div _ _ _ | .rem _ _ _ => none
  | .addi _ _ _ | .andi _ _ _ | .ori _ _ _ | .jalr _ _ _ => none
  | .lb _ _ _ | .lh _ _ _ | .lw _ _ _ | .ld _ _ _ => none
  | .sb _ _ _ | .sh _ _ _ | .sw _ _ _ | .sd _ _ _ => none
  | .lui _ _ | .auipc _ _ | .jal _ _ => none

/-- The width of a store; none for every other instruction (R155). -/
def storeWidth (i : Instr) : Option Nat :=
  match i with
  | .sb _ _ _ => some 1
  | .sh _ _ _ => some 2
  | .sw _ _ _ => some 4
  | .sd _ _ _ => some 8
  | .add _ _ _ | .sub _ _ _ | .sll _ _ _ | .slt _ _ _ | .xor _ _ _ | .srl _ _ _ => none
  | .sra _ _ _ | .or _ _ _ | .and _ _ _ | .mul _ _ _ | .div _ _ _ | .rem _ _ _ => none
  | .addi _ _ _ | .andi _ _ _ | .ori _ _ _ | .jalr _ _ _ => none
  | .lb _ _ _ | .lh _ _ _ | .lw _ _ _ | .ld _ _ _ => none
  | .beq _ _ _ | .bne _ _ _ | .blt _ _ _ | .bge _ _ _ => none
  | .lui _ _ | .auipc _ _ | .jal _ _ => none

/-- The width of a load; none for every other instruction (R150). -/
def loadWidth (i : Instr) : Option Nat :=
  match i with
  | .lb _ _ _ => some 1
  | .lh _ _ _ => some 2
  | .lw _ _ _ => some 4
  | .ld _ _ _ => some 8
  | .add _ _ _ | .sub _ _ _ | .sll _ _ _ | .slt _ _ _ | .xor _ _ _ | .srl _ _ _ => none
  | .sra _ _ _ | .or _ _ _ | .and _ _ _ | .mul _ _ _ | .div _ _ _ | .rem _ _ _ => none
  | .addi _ _ _ | .andi _ _ _ | .ori _ _ _ | .jalr _ _ _ => none
  | .sb _ _ _ | .sh _ _ _ | .sw _ _ _ | .sd _ _ _ => none
  | .beq _ _ _ | .bne _ _ _ | .blt _ _ _ | .bge _ _ _ => none
  | .lui _ _ | .auipc _ _ | .jal _ _ => none

/-- The execute stage of this step does not flush: D holds no jalr and no branch whose outcome differs
from what decode assumed (R207). -/
def NoFlush (s : State) : Prop :=
  ∀ i, s.slotD = some i → i.instr.isJalr = false ∧
    ∀ tk, branchOutcome i.instr s.bufA s.bufB = some tk → tk = i.predTaken

/-- The instruction whose writeback this step performs (R203, R226). -/
def retiring (s : State) : Option Rec :=
  if s.params.cfgPipelined = true then s.slotW
  else if s.phase = .writeback then s.slotW else none

/-- The instruction whose memory stage this step performs (R205, R225). -/
def accessing (s : State) : Option Rec :=
  if s.params.cfgPipelined = true then s.slotX
  else if s.phase = .memory then s.slotX else none

/-- The stall count of i decoded in this step: the instruction now in D will be its index-3 producer, the
one now in X its index-2 producer (R252, R255, R263). -/
def StallCount (s : State) (i : Instr) (n : Nat) : Prop :=
  (s.fwdOn = false → DependsOnSlot i s.slotD → n = 2) ∧
  (s.fwdOn = false → ¬DependsOnSlot i s.slotD → DependsOnSlot i s.slotX → n = 1) ∧
  (s.fwdOn = false → ¬DependsOnSlot i s.slotD → ¬DependsOnSlot i s.slotX → n = 0) ∧
  (s.fwdOn = true → DependsOnSlot i s.slotD → (∀ p, s.slotD = some p → p.instr.isLoad = true) → n = 1) ∧
  (s.fwdOn = true → DependsOnSlot i s.slotD → (∀ p, s.slotD = some p → p.instr.isLoad = false) → n = 0) ∧
  (s.fwdOn = true → ¬DependsOnSlot i s.slotD → n = 0)

/-- The number of an error code (R307). -/
def errNumber (c : ErrCode) : BitVec 8 :=
  match c with
  | .unknownOpcode => 1#8
  | .unknownFunct => 2#8
  | .loadRange => 3#8
  | .storeRange => 4#8
  | .divZero => 5#8

/-- The memory stage of this step makes the range error c: a load or a store is in X and its access at Z
is out of range (R303). -/
def RangeError (s : State) (c : ErrCode) : Prop :=
  ∃ x n, s.slotX = some x ∧ ¬InRange s.params s.bufZ n ∧
    (c = .loadRange ∧ loadWidth x.instr = some n ∨ c = .storeRange ∧ storeWidth x.instr = some n)

/-- The execute stage of this step divides by zero: a div or rem fetched from a is in D and B is 0 (R304). -/
def DivideError (s : State) (a : Word) : Prop :=
  ∃ d rd rs1 rs2, s.slotD = some d ∧ d.fpc = a ∧ s.bufB = 0#32 ∧
    (d.instr = .div rd rs1 rs2 ∨ d.instr = .rem rd rs1 rs2)

/-- The number of instructions in a slot. -/
def held (r : Option Rec) : Nat := if r = none then 0 else 1

/-- What the fetch sub-step leaves when it is attempted with pc = p (R212, R214). -/
def FetchedFrom (s t : State) (p : Word) : Prop :=
  (∀ w, s.ifetch p = some w → t.slotF = some { word := w, fpc := p } ∧ t.pc = p + 4#32) ∧
  (s.ifetch p = none → t.slotF = none ∧ t.pc = p)

/-- The value register r has for the next instruction in program order, with X and W in flight: X's Z, else
W's Y, else the register file (R260). -/
def bypassed (s : State) (r : Reg) : Word :=
  if r = 0#5 then 0#32
  else if slotDest s.slotX = some r then s.bufZ
  else if slotDest s.slotW = some r then s.bufY
  else s.readReg r

/-- The reset state of an image with the three mode flags and the sticky bit chosen. -/
def startOf (p : Params) (im : IMem) (dm sm : Memory) (pipe fwd pred bit : Bool) : State :=
  { State.resetWith { p with cfgPipelined := pipe, cfgForward := fwd, cfgPredict := pred } im dm sm with
    predBit := bit }

/-- The state with the two raw flags that only pipelined mode uses replaced (R9). -/
def withRawFlags (s : State) (fwd pred : Bool) : State :=
  { s with params := { s.params with cfgForward := fwd, cfgPredict := pred } }

end Sys2Proof.Claims

open Sys2Proof Sys2Proof.Machine Sys2Proof.Safety Sys2Proof.Claims

/-! # Encoding -/

/-- Words of part 2.1 of 95_test_vectors.md, written out from R92 to R97 and R102. -/
def Obligations.DecodesWordsWrittenFromTheEncodings : Prop :=
  decode 0x407302B3#32 = .ok (.sub 5 6 7) ∧
  decode 0x80030293#32 = .ok (.addi 5 6 (BitVec.ofInt 32 (-2048))) ∧
  decode 0xFE613C23#32 = .ok (.sd 2 6 (BitVec.ofInt 32 (-8))) ∧
  decode 0xFE734CE3#32 = .ok (.blt 6 7 (BitVec.ofInt 32 (-8))) ∧
  decode 0x80000297#32 = .ok (.auipc 5 (BitVec.ofInt 32 (-524288))) ∧
  decode 0x0010006F#32 = .ok (.jal 0 2048)

/-- R108: decode of encode is the instruction, for every representable field combination of all 31. -/
def Obligations.DecodeOfEncodeIsTheInstruction : Prop :=
  ∀ i : Instr, i.WellFormed → decode (encode i) = .ok i

/-- R108: every word that decodes is the encoding of what it decodes to, which is representable. -/
def Obligations.EncodeOfDecodeIsTheWord : Prop :=
  ∀ (w : Word) (i : Instr), decode w = .ok i → i.WellFormed ∧ encode i = w

/-- R105: every word either spells exactly one of the 31 rows or is refused. -/
def Obligations.EveryWordSpellsOneRowOrIsRefused : Prop :=
  ∀ w : Word,
    ((∃ i, decode w = .ok i) ↔ ∃ row ∈ opcodeRows, w &&& row.2 = row.1) ∧
    (opcodeRows.filter fun row => w &&& row.2 == row.1).length ≤ 1

/-- R101, R103, R104: an opcode outside the nine is unknown; a known opcode that spells no row has an
unknown function code (the spec's decision D8). -/
def Obligations.RefusalsAreByName : Prop :=
  ∀ w : Word,
    (decode w = .unknownOpcode ↔
      w.extractLsb' 0 7 ∉ [0x33#7, 0x13#7, 0x03#7, 0x67#7, 0x23#7, 0x63#7, 0x37#7, 0x17#7, 0x6F#7]) ∧
    (decode w = .unknownFunct ↔
      w.extractLsb' 0 7 ∈ [0x33#7, 0x13#7, 0x03#7, 0x67#7, 0x23#7, 0x63#7, 0x37#7, 0x17#7, 0x6F#7] ∧
      ∀ row ∈ opcodeRows, w &&& row.2 ≠ row.1)

/-- R99, R107: absent fields by format, capability tags by opcode, the effective destination. -/
def Obligations.RecordFieldsByFormat : Prop :=
  ∀ i : Instr,
    (i.rd = none ↔ i.fmt = .S ∨ i.fmt = .B) ∧
    (i.rs2 = none ↔ i.fmt = .I ∨ i.fmt = .U ∨ i.fmt = .UJ) ∧
    (i.rs1 = none ↔ i.fmt = .U ∨ i.fmt = .UJ) ∧
    (i.isLoad = true ↔ i.opcode = 0b0000011#7) ∧ (i.isStore = true ↔ i.opcode = 0b0100011#7) ∧
    (i.isBranch = true ↔ i.opcode = 0b1100011#7) ∧
    (i.isJump = true ↔ i.opcode = 0b1101111#7 ∨ i.opcode = 0b1100111#7) ∧
    (∀ r, i.effDest = some r ↔ i.rd = some r ∧ r ≠ 0#5)

/-! # Register arithmetic (40_alu_r.md) -/

/-- R121, R122: add and sub modulo 2^32. -/
def Obligations.AddAndSubWrap : Prop :=
  Spells 0xFE00707F#32 0x00000033#32 (rWord .add) ∧
  ComputesR .add (fun a b => BitVec.ofNat 32 ((a.toNat + b.toNat) % 2 ^ 32)) ∧
  Spells 0xFE00707F#32 0x40000033#32 (rWord .sub) ∧
  ComputesR .sub (fun a b => BitVec.ofInt 32 (((a.toNat : Int) - b.toNat) % 2 ^ 32))

/-- R123, R126, R127: the amount is the low five bits of the second operand (the spec's decision D11). -/
def Obligations.ShiftsUseLowFiveBits : Prop :=
  Spells 0xFE00707F#32 0x00001033#32 (rWord .sll) ∧
  ComputesR .sll (fun a b => BitVec.ofNat 32 (a.toNat * 2 ^ (b.toNat % 32) % 2 ^ 32)) ∧
  Spells 0xFE00707F#32 0x00005033#32 (rWord .srl) ∧
  ComputesR .srl (fun a b => BitVec.ofNat 32 (a.toNat / 2 ^ (b.toNat % 32))) ∧
  Spells 0xFE00707F#32 0x40005033#32 (rWord .sra) ∧
  ComputesR .sra (fun a b => BitVec.ofInt 32 (Int.fdiv a.toInt (2 ^ (b.toNat % 32))))

/-- R124: slt compares the signed readings (the spec's decision D13). -/
def Obligations.SetLessThanIsSigned : Prop :=
  Spells 0xFE00707F#32 0x00002033#32 (rWord .slt) ∧
  ComputesR .slt (fun a b => if a.toInt < b.toInt then 0x00000001#32 else 0x00000000#32)

/-- R125, R128, R129: bit k of the result is the operation on bits k of the operands. -/
def Obligations.LogicIsBitwise : Prop :=
  Spells 0xFE00707F#32 0x00004033#32 (rWord .xor) ∧
  ComputesR .xor (fun a b => BitVec.ofFnLE fun k : Fin 32 => Bool.xor (a.getLsbD k) (b.getLsbD k)) ∧
  Spells 0xFE00707F#32 0x00006033#32 (rWord .or) ∧
  ComputesR .or (fun a b => BitVec.ofFnLE fun k : Fin 32 => a.getLsbD k || b.getLsbD k) ∧
  Spells 0xFE00707F#32 0x00007033#32 (rWord .and) ∧
  ComputesR .and (fun a b => BitVec.ofFnLE fun k : Fin 32 => a.getLsbD k && b.getLsbD k)

/-- R130: the low 32 bits of the product, the same for both readings of the operands. -/
def Obligations.MultiplyKeepsLowHalf : Prop :=
  Spells 0xFE00707F#32 0x02000033#32 (rWord .mul) ∧
  ComputesR .mul (fun a b => BitVec.ofNat 32 (a.toNat * b.toNat % 2 ^ 32)) ∧
  ComputesR .mul (fun a b => BitVec.ofInt 32 (a.toInt * b.toInt))

/-- R131 by the sign table of R133 (the spec's decision D12); the overflow pair gives the parameter `DIV_OVERFLOW_Q`, whose
default is 0x80000000 (93_implementation_defined.md U2; log entry 5). -/
def Obligations.DivideTruncatesAndDefaults : Prop :=
  Spells 0xFE00707F#32 0x02004033#32 (rWord .div) ∧
  Params.reference.divOverflowQ = 0x80000000#32 ∧
  ComputesDivide .div (fun p a b =>
    if b = 0#32 then 0xFFFFFFFF#32
    else if a = 0x80000000#32 ∧ b = 0xFFFFFFFF#32 then p.divOverflowQ
    else if 0 ≤ a.toInt ∧ 0 < b.toInt then BitVec.ofInt 32 (Int.fdiv a.toInt b.toInt)
    else if a.toInt < 0 ∧ 0 < b.toInt then BitVec.ofInt 32 (-(Int.fdiv (-a.toInt) b.toInt))
    else if 0 ≤ a.toInt then BitVec.ofInt 32 (-(Int.fdiv a.toInt (-b.toInt)))
    else BitVec.ofInt 32 (Int.fdiv (-a.toInt) (-b.toInt)))

/-- R132 by the sign table of R133 (the spec's decision D12); the overflow pair gives the parameter `DIV_OVERFLOW_R`, whose
default is 0 (93_implementation_defined.md U2; log entry 5). -/
def Obligations.RemainderHasDividendSign : Prop :=
  Spells 0xFE00707F#32 0x02006033#32 (rWord .rem) ∧
  Params.reference.divOverflowR = 0x00000000#32 ∧
  ComputesDivide .rem (fun p a b =>
    if b = 0#32 then a
    else if a = 0x80000000#32 ∧ b = 0xFFFFFFFF#32 then p.divOverflowR
    else if 0 ≤ a.toInt ∧ 0 < b.toInt then
      BitVec.ofInt 32 (a.toInt - b.toInt * Int.fdiv a.toInt b.toInt)
    else if a.toInt < 0 ∧ 0 < b.toInt then BitVec.ofInt 32 (-(Int.fmod (-a.toInt) b.toInt))
    else if 0 ≤ a.toInt then BitVec.ofInt 32 (Int.fmod a.toInt (-b.toInt))
    else BitVec.ofInt 32 (-(Int.fmod (-a.toInt) (-b.toInt))))

/-! # Immediate arithmetic (41_alu_i.md) -/

/-- R141 to R143: addi wraps; andi and ori use the whole sign-extended immediate. That andi and ori exist is
the spec's decision D5. -/
def Obligations.ImmediateArithmetic : Prop :=
  Spells 0x0000707F#32 0x00000013#32 (iWord .addi) ∧
  ComputesI .addi (fun a m => BitVec.ofNat 32 ((a.toNat + m.toNat) % 2 ^ 32)) ∧
  Spells 0x0000707F#32 0x00007013#32 (iWord .andi) ∧
  ComputesI .andi (fun a m => BitVec.ofFnLE fun k : Fin 32 => a.getLsbD k && m.getLsbD k) ∧
  Spells 0x0000707F#32 0x00006013#32 (iWord .ori) ∧
  ComputesI .ori (fun a m => BitVec.ofFnLE fun k : Fin 32 => a.getLsbD k || m.getLsbD k)

/-! # Loads and stores (42_load_store.md) -/

/-- R151 to R154 in range: lb and lh sign-extend, lw takes four bytes, ld the low four of eight (the
spec's decisions D9 and D10). -/
def Obligations.LoadsReadLittleEndianBytes : Prop :=
  Spells 0x0000707F#32 0x00000003#32 (iWord .lb) ∧
  LoadsValue .lb 1 (fun s g a => (s.readByte g a).signExtend 32) ∧
  Spells 0x0000707F#32 0x00001003#32 (iWord .lh) ∧
  LoadsValue .lh 2 (fun s g a =>
    (s.readByte g (a + 1) ++ s.readByte g a : BitVec 16).signExtend 32) ∧
  Spells 0x0000707F#32 0x00002003#32 (iWord .lw) ∧ LoadsValue .lw 4 wordAt ∧
  Spells 0x0000707F#32 0x00003003#32 (iWord .ld) ∧ LoadsValue .ld 8 wordAt

/-- R68, R303: an out-of-range load of any width writes 0 (the spec's decision D18), logs E_LOAD_RANGE and
goes on. -/
def Obligations.OutOfRangeLoadYieldsZeroAndLogs : Prop :=
  LoadsZeroOutOfRange .lb 1 ∧ LoadsZeroOutOfRange .lh 2 ∧ LoadsZeroOutOfRange .lw 4 ∧
  LoadsZeroOutOfRange .ld 8

/-- R156 to R159 in range: the low bytes of the register, for sd its sign extension (the spec's decision
D9). -/
def Obligations.StoresWriteLittleEndianBytes : Prop :=
  Spells 0x0000707F#32 0x00000023#32 (sWord .sb) ∧ StoresBytes .sb 1 regByte ∧
  Spells 0x0000707F#32 0x00001023#32 (sWord .sh) ∧ StoresBytes .sh 2 regByte ∧
  Spells 0x0000707F#32 0x00002023#32 (sWord .sw) ∧ StoresBytes .sw 4 regByte ∧
  Spells 0x0000707F#32 0x00003023#32 (sWord .sd) ∧ StoresBytes .sd 8 regByte64

/-- R69, R303: an out-of-range store of any width changes no byte, logs E_STORE_RANGE and goes on. -/
def Obligations.OutOfRangeStoreIsSkippedAndLogs : Prop :=
  StoreSkippedOutOfRange .sb 1 ∧ StoreSkippedOutOfRange .sh 2 ∧ StoreSkippedOutOfRange .sw 4 ∧
  StoreSkippedOutOfRange .sd 8

/-- R160: a store and then the load of the same width at the same in-range address. The two run one
after the other; the base register is not the load's destination's concern, since it is read first. -/
def Obligations.StoreThenLoadRoundTrip : Prop :=
  ∀ (s : State) (rd rs1 rs2 : Reg) (imm : Word) (g : Region), Memory.wf (s.space g) = true →
    rd ≠ 0#5 →
    (InWindow s.params g (s.readReg rs1 + imm) 1 → ∃ t u, exec (.sb rs1 rs2 imm) s = .next t ∧
      exec (.lb rd rs1 imm) t = .next u ∧
      u.readReg rd = ((s.readReg rs2).extractLsb' 0 8).signExtend 32 ∧
      (u.readReg rd = s.readReg rs2 ↔ fitsSigned 8 (s.readReg rs2))) ∧
    (InWindow s.params g (s.readReg rs1 + imm) 2 → ∃ t u, exec (.sh rs1 rs2 imm) s = .next t ∧
      exec (.lh rd rs1 imm) t = .next u ∧
      u.readReg rd = ((s.readReg rs2).extractLsb' 0 16).signExtend 32 ∧
      (u.readReg rd = s.readReg rs2 ↔ fitsSigned 16 (s.readReg rs2))) ∧
    (InWindow s.params g (s.readReg rs1 + imm) 4 → ∃ t u, exec (.sw rs1 rs2 imm) s = .next t ∧
      exec (.lw rd rs1 imm) t = .next u ∧ u.readReg rd = s.readReg rs2) ∧
    (InWindow s.params g (s.readReg rs1 + imm) 8 → ∃ t u, exec (.sd rs1 rs2 imm) s = .next t ∧
      exec (.ld rd rs1 imm) t = .next u ∧ u.readReg rd = s.readReg rs2)

/-! # Branches, upper immediates and jumps (43_branch.md, 44_upper_jump.md) -/

/-- R170 to R174 for a branch executed alone; the signed comparison and the target in Z are the spec's
decisions D13 and D30. -/
def Obligations.BranchesFollowTheirConditions : Prop :=
  Spells 0x0000707F#32 0x00000063#32 (bWord .beq) ∧ BranchesOn .beq (fun a b => a = b) ∧
  Spells 0x0000707F#32 0x00001063#32 (bWord .bne) ∧ BranchesOn .bne (fun a b => a ≠ b) ∧
  Spells 0x0000707F#32 0x00004063#32 (bWord .blt) ∧ BranchesOn .blt (fun a b => a.toInt < b.toInt) ∧
  Spells 0x0000707F#32 0x00005063#32 (bWord .bge) ∧ BranchesOn .bge (fun a b => b.toInt ≤ a.toInt)

/-- R180, R181: no register is read (A is 0, B the immediate); the immediate is shifted by 12 (the spec's
decisions D5 and D31). -/
def Obligations.UpperImmediates : Prop :=
  Spells 0x0000007F#32 0x00000037#32 (uWord .lui) ∧
  (∀ (rd : Reg) (imm : Word) (s : State), ∃ t, exec (.lui rd imm) s = .next t ∧
    WritesResult (.lui rd imm) s t rd 0#32 imm (BitVec.ofNat 32 (imm.toNat * 4096 % 2 ^ 32)) ∧
    ErrorsKept s t) ∧
  Spells 0x0000007F#32 0x00000017#32 (uWord .auipc) ∧
  (∀ (rd : Reg) (imm : Word) (s : State), ∃ t, exec (.auipc rd imm) s = .next t ∧
    WritesResult (.auipc rd imm) s t rd 0#32 imm
      (BitVec.ofNat 32 ((s.pc.toNat + imm.toNat * 4096) % 2 ^ 32)) ∧
    ErrorsKept s t)

/-- R182, R183 for a jump executed alone: return address to rd, target from the old base register, bit 0
of jalr's target cleared (the spec's decisions D14 and D30). -/
def Obligations.JumpsLinkAndTransfer : Prop :=
  Spells 0x0000007F#32 0x0000006F#32 (ujWord .jal) ∧
  (∀ (rd : Reg) (imm : Word) (s : State), ∃ t, exec (.jal rd imm) s = .next t ∧
    JumpsTo (.jal rd imm) s t rd 0#32 imm (s.pc + imm)) ∧
  Spells 0x0000707F#32 0x00000067#32 (iWord .jalr) ∧
  (∀ (rd rs1 : Reg) (imm : Word) (s : State), ∃ t target, exec (.jalr rd rs1 imm) s = .next t ∧
    target.toNat = ((s.readReg rs1).toNat + imm.toNat) % 2 ^ 32 / 2 * 2 ∧
    JumpsTo (.jalr rd rs1 imm) s t rd (s.readReg rs1) imm target)

/-! # Reset, the host's view, terminal states -/

/-- R44: the reset table, for every choice of the parameters and images; all but the two seeds and x0 are
the spec's decisions D17, D20 and D36. -/
def Obligations.ResetTable : Prop :=
  ∀ (p : Params) (im : IMem) (dm sm : Memory) (r : Reg),
    (State.resetWith p im dm sm).readReg r =
      (if r = 2#5 then p.spInit else if r = 3#5 then p.gpInit else 0#32) ∧
    (∀ g a, (State.resetWith p im dm sm).readByte g a =
      Memory.read (match g with | .data => dm | .stack => sm) a) ∧
    State.resetWith p im dm sm =
      { State.resetWith p im dm sm with
        pc := p.pcReset, bufA := 0#32, bufB := 0#32, bufZ := 0#32, bufY := 0#32, bufM := 0#32,
        slotF := none, slotD := none, slotX := none, slotW := none, slotS := none,
        win := ⟨none, none, none, none, none⟩, ftab := [], bubble := 0, predBit := false,
        phase := .fetch, done := false, fatal := false, errSeen := false, fatalCode := 0#8,
        fatalInfo := 0#32, errCode := 0#8, errInfo := 0#32, seqCtr := 0, params := p, imem := im }

/-- The invariant holds after reset, whatever the parameters, the images (in canonical form) and the
mode. -/
def Obligations.InvariantAtReset : Prop :=
  Inv State.reset ∧
  ∀ (p : Params) (im : IMem) (dm sm : Memory), IMem.wf im = true → Memory.wf dm = true →
    Memory.wf sm = true → Inv (State.resetWith p im dm sm)

/-- From every state that meets the invariant a step answers a next state that meets it: the machine
never faults and never refuses (R21, R39, R43, R221, R262, R289). -/
def Obligations.StepKeepsInvariant : Prop :=
  ∀ s : State, Inv s → ∃ t, step s = .next t ∧ Inv t

/-- R13, R39: the terminal bits and `err_seen` are sticky under any number of steps; a halted machine
does not change at all. -/
def Obligations.TerminalBitsAreSticky : Prop :=
  ∀ (n : Nat) (s t : State), stepN n s = .next t →
    (s.done = true → t.done = true) ∧ (s.fatal = true → t.fatal = true) ∧
    (s.errSeen = true → t.errSeen = true) ∧ (s.halted = true → t = s) ∧
    (¬(s.done = true ∧ s.fatal = true) → ¬(t.done = true ∧ t.fatal = true))

/-- R61, R81, U12: no step changes the instruction space or a parameter, so nothing a program does
changes what a later fetch returns. -/
def Obligations.FetchIsNeverChangedByRunning : Prop :=
  ∀ (n : Nat) (s t : State), stepN n s = .next t →
    t.imem = s.imem ∧ t.params = s.params ∧ ∀ a, t.ifetch a = s.ifetch a

/-- R9, R306: with `cfg_pipelined` = 0 the raw flags `cfg_forward` and `cfg_predict` have no effect on
execution: a step of the machine with them changed is the step with them changed. -/
def Obligations.RawFlagsIgnoredWithoutPipelining : Prop :=
  ∀ (s : State) (fwd pred : Bool), s.params.cfgPipelined = false →
    (∀ t, step s = .next t → step (withRawFlags s fwd pred) = .next (withRawFlags t fwd pred)) ∧
    (∀ f, step s = .fault f → step (withRawFlags s fwd pred) = .fault f)

/-! # The non-pipelined machine (R221 to R226) -/

/-- A STEP RUNS THE DECODED INSTRUCTION: in non-pipelined mode five steps from a FETCH phase are one
`exec` of the decoded word, in the whole state. -/
def Obligations.FiveStepsRunInstruction : Prop :=
  ∀ (s : State) (w : Word) (i : Instr), ReadyToFetch s → s.ifetch s.pc = some w →
    decode w = .ok i → stepN 5 s = exec i s

/-- The word `withFetchWord` places (the model's own operation, log entry 4), in every state and both
modes, is the one the next step fetches, at pc; registers and bytes are as they were; and in
non-pipelined mode, where a step is one phase (R14), five steps are one `exec` of it. -/
def Obligations.PlacedWordIsTheOneThatRuns : Prop :=
  ∀ (s p : State) (i : Instr), i.WellFormed → p = s.withFetchWord 32 (encode i).toNat →
    RegsKept s p ∧ p.data = s.data ∧ p.stack = s.stack ∧
    (∃ t, step p = .next t ∧ t.slotF = some { word := encode i, fpc := s.pc } ∧
      t.pc = s.pc + 4#32) ∧
    (s.params.cfgPipelined = false → stepN 5 p = exec i p)

/-- R222: the FETCH phase. At the termination address, mapped or not, and at an address `IMEM` does not map,
it sets `done` and nothing else but the trace; at every other address the word and its address enter
F, pc advances by 4 and the phase becomes DECODE, and nothing else changes but the trace. -/
def Obligations.FetchPhaseFetchesOrCompletes : Prop :=
  ∀ s : State, s.halted = false → s.params.cfgPipelined = false → s.phase = .fetch →
    (s.pc = s.params.termAddr ∨ IMem.lookup s.imem s.pc.toNat = none →
      step s = .next { s with done := true, trace := [.ifNone, .done] }) ∧
    (∀ w, s.pc ≠ s.params.termAddr → IMem.lookup s.imem s.pc.toNat = some w →
      step s = .next { s with
        slotF := some { word := w, fpc := s.pc }, pc := s.pc + 4#32, phase := .decode,
        trace := [.ifAt s.pc] })

/-- R223, R302: in non-pipelined mode the fatal error is precise: two steps after the fetch of a word
that does not decode, `fatal` is set with its code and the word, phase is DECODE, pc is past the word,
and every register, byte, buffer and the decode counter are as before the fetch. That the trace is exactly
one FATAL event carrying the word is the model's reading (DEDUCED, log entry 7): R302 and R223 each
write the emit. -/
def Obligations.NonPipelinedDecodeErrorIsPrecise : Prop :=
  ∀ (s : State) (w : Word), ReadyToFetch s → s.ifetch s.pc = some w →
    (∀ i, decode w ≠ .ok i) →
    ∃ c, (decode w = .unknownOpcode → c = ErrCode.unknownOpcode) ∧
      (decode w = .unknownFunct → c = ErrCode.unknownFunct) ∧
      stepN 2 s = .next { s with
        pc := s.pc + 4#32, phase := .decode, fatal := true, fatalCode := c.num, fatalInfo := w,
        trace := [.fatal c w] }

/-! # The pipelined step: who writes what (R24, R203, R205, R286) -/

/-- R20, R203, R226: a step writes a register only by the writeback stage: the effective destination of
the instruction it retires gets Y, every other register keeps its value. Both modes. -/
def Obligations.RegistersWrittenOnlyByWriteback : Prop :=
  ∀ s t : State, s.halted = false → step s = .next t → ∀ r,
    (∀ i, retiring s = some i → i.instr.effDest = some r → t.readReg r = s.bufY) ∧
    ((∀ i, retiring s = some i → i.instr.effDest ≠ some r) → t.readReg r = s.readReg r)

/-- R69, R205, R225: a step changes a byte only by the memory stage of a store, in its window, at one of
its n addresses. Both modes. -/
def Obligations.BytesWrittenOnlyByAStoresMemoryStage : Prop :=
  ∀ s t : State, Base s → s.halted = false → step s = .next t → ∀ g a,
    t.readByte g a ≠ s.readByte g a →
    ∃ i n, accessing s = some i ∧ storeWidth i.instr = some n ∧
      InWindow s.params g s.bufZ n ∧ s.bufZ.toNat ≤ a ∧ a < s.bufZ.toNat + n

/-- R201, R203 to R206: the pipelined execute and memory stages compute what the instruction run alone
does. The one in D, on the operands in A and B, leaves `exec`'s Z (and M, for a store or a jump); the one
in X, on its Z and M and the present memory, leaves `exec`'s Y and `exec`'s two byte spaces. -/
def Obligations.PipelinedStagesComputeWhatExecDoes : Prop :=
  ∀ s t : State, RunsPipelined s → step s = .next t →
    (∀ (i : Rec) (v u : State), s.slotD = some i → v.pc = i.fpc → v.params = s.params →
      v.operandA i.instr = s.bufA → v.operandB i.instr = s.bufB → exec i.instr v = .next u →
      t.bufZ = u.bufZ ∧ (i.instr.isStore = true ∨ i.instr.isJump = true → t.bufM = u.bufM)) ∧
    (∀ (i : Rec) (v u : State), s.slotX = some i → v.params = s.params → v.data = s.data →
      v.stack = s.stack → exec i.instr v = .next u → u.bufZ = s.bufZ →
      (i.instr.isStore = true → u.bufM = s.bufM) →
      t.bufY = u.bufY ∧ t.data = u.data ∧ t.stack = u.stack)

/-- R24 in pipelined mode: pc is left by the fetch increment of a base that is the old pc, or the outcome
of a branch in D, or the target of a jalr in D, or the target of a jal or branch decoded from F. No
other base exists; in particular the writeback stage supplies none. -/
def Obligations.PipelinedPcWriters : Prop :=
  ∀ s t : State, RunsPipelined s → step s = .next t → ∃ p : Word,
    (p = s.pc ∨
      (∃ i, s.slotD = some i ∧ i.instr.isBranch = true ∧
        (p = i.fpc + i.instr.imm ∨ p = i.fpc + 4#32)) ∨
      (∃ i, s.slotD = some i ∧ i.instr.isJalr = true ∧
        p.toNat = (s.bufA.toNat + s.bufB.toNat) % 2 ^ 32 / 2 * 2) ∨
      (∃ f j, s.slotF = some f ∧ decode f.word = .ok j ∧ (j.isJal = true ∨ j.isBranch = true) ∧
        p = f.fpc + j.imm)) ∧
    (t.pc = p ∧ t.slotF = none ∨
      t.pc = p + 4#32 ∧ ∃ w, s.ifetch p = some w ∧ t.slotF = some { word := w, fpc := p })

/-- R286: `pred_bit` changes only by a mispredicted conditional branch with the predictor enabled, and
after every resolved branch with the predictor enabled it equals that branch's outcome. -/
def Obligations.PredictorBitWrittenOnlyOnMisprediction : Prop :=
  (∀ s t : State, s.halted = false → step s = .next t → t.predBit ≠ s.predBit →
    s.predOn = true ∧ ∃ i tk, s.slotD = some i ∧ branchOutcome i.instr s.bufA s.bufB = some tk ∧
      tk ≠ i.predTaken ∧ t.predBit = tk) ∧
  (∀ s t : State, Inv s → RunsPipelined s → step s = .next t → s.predOn = true →
    ∀ i tk, s.slotD = some i → branchOutcome i.instr s.bufA s.bufB = some tk → t.predBit = tk)

/-! # Control hazards (47_branch_predictor.md) -/

/-- R207, R284: the outcome is recorded, and the four cases of resolution, by the execute sub-step. On
agreement pc, F and the bit stay; on disagreement pc is the true target, F is empty, and the bit has
the outcome if the predictor is enabled. -/
def Obligations.ResolutionTable : Prop :=
  ∀ (s : State) (i : Rec) (tk : Bool), s.slotD = some i →
    branchOutcome i.instr s.bufA s.bufB = some tk →
    (subExecute s).1.slotX = some { i with taken := some tk } ∧ (subExecute s).1.slotD = none ∧
    (tk = i.predTaken → (subExecute s).2 = false ∧ (subExecute s).1.pc = s.pc ∧
      (subExecute s).1.slotF = s.slotF ∧ (subExecute s).1.predBit = s.predBit) ∧
    (i.predTaken = false → tk = true → (subExecute s).2 = true ∧
      (subExecute s).1.pc = i.fpc + i.instr.imm ∧ (subExecute s).1.slotF = none ∧
      (subExecute s).1.predBit = (if s.predOn = true then true else s.predBit)) ∧
    (i.predTaken = true → tk = false → (subExecute s).2 = true ∧
      (subExecute s).1.pc = i.fpc + 4#32 ∧ (subExecute s).1.slotF = none ∧
      (subExecute s).1.predBit = (if s.predOn = true then false else s.predBit))

/-- R213, R285: on a misprediction, at the end of the step pc is the true target, F is empty and the fetch
was withheld, the bit has the outcome if the predictor is enabled, the branch is in X, and S, `ftab`
and `bubble` are untouched. -/
def Obligations.MispredictionFlushes : Prop :=
  ∀ (s : State) (i : Rec) (tk : Bool), Inv s → RunsPipelined s → s.slotD = some i →
    branchOutcome i.instr s.bufA s.bufB = some tk → tk ≠ i.predTaken →
    ∃ t, step s = .next t ∧
      t.pc = (if tk = true then i.fpc + i.instr.imm else i.fpc + 4#32) ∧ t.slotF = none ∧
      t.predBit = (if s.predOn = true then tk else s.predBit) ∧
      t.slotX = some { i with taken := some tk } ∧ t.slotD = none ∧
      t.slotS = s.slotS ∧ t.ftab = s.ftab ∧ t.bubble = s.bubble ∧
      Event.flush ∈ t.trace ∧ Event.ifWithheld ∈ t.trace

/-- R288: a jalr's execute stage always redirects to the target with bit 0 cleared, empties F, withholds
the fetch and leaves `pred_bit` alone. -/
def Obligations.JalrRedirectsAtExecute : Prop :=
  ∀ (s : State) (i : Rec), Inv s → RunsPipelined s → s.slotD = some i → i.instr.isJalr = true →
    ∃ t, step s = .next t ∧
      t.pc.toNat = (s.bufA.toNat + s.bufB.toNat) % 2 ^ 32 / 2 * 2 ∧ t.slotF = none ∧
      t.predBit = s.predBit ∧ t.slotX = some i ∧ t.slotD = none ∧ t.bufM = t.pc ∧
      t.bufZ = i.fpc + 4#32 ∧ Event.ifWithheld ∈ t.trace

/-- R282, R283, R291: a jal, and a conditional branch with the predictor enabled and its bit at taken,
redirect pc at their decode; the fetch of the same step reads the target, unless the instruction is
parked, and then the redirect stands and the fetch is withheld. -/
def Obligations.TakenPredictionRedirectsAtDecode : Prop :=
  ∀ (s : State) (f : Fetched) (i : Instr), Inv s → RunsPipelined s → NoFlush s →
    s.slotF = some f → decode f.word = .ok i →
    (i.isJal = true ∨ (i.isBranch = true ∧ s.predOn = true ∧ s.predBit = true)) →
    ∃ t r, step s = .next t ∧ r.instr = i ∧ r.fpc = f.fpc ∧ r.predTaken = true ∧
      ((t.slotD = some r ∧ FetchedFrom s t (f.fpc + i.imm)) ∨
        (t.slotS = some r ∧ t.slotF = none ∧ t.pc = f.fpc + i.imm))

/-- R281, R287: every other instruction is decoded with `pred_taken` = 0 and fetching goes on at the live
pc, which is the next sequential address. -/
def Obligations.NotTakenPredictionFetchesOn : Prop :=
  ∀ (s : State) (f : Fetched) (i : Instr), Inv s → RunsPipelined s → NoFlush s →
    s.slotF = some f → decode f.word = .ok i →
    ¬(i.isJal = true ∨ (i.isBranch = true ∧ s.predOn = true ∧ s.predBit = true)) →
    ∃ t r, step s = .next t ∧ r.instr = i ∧ r.fpc = f.fpc ∧ r.predTaken = false ∧
      ((t.slotD = some r ∧ FetchedFrom s t (f.fpc + 4#32)) ∨
        (t.slotS = some r ∧ t.slotF = none ∧ t.pc = f.fpc + 4#32))

/-! # Data hazards (46_hazard_forwarding.md) -/

/-- R211, R252, R255 to R257, R263: the decoded instruction enters D exactly when its stall count is 0;
else it is parked in S with the count in `bubble` (one less after the step's decrement), nothing is
fetched, and `win[4]` is NONE. -/
def Obligations.StallCounts : Prop :=
  ∀ (s : State) (f : Fetched) (i : Instr) (n : Nat), Inv s → RunsPipelined s → NoFlush s →
    s.slotF = some f → decode f.word = .ok i → StallCount s i n →
    ∃ t r, step s = .next t ∧ r.instr = i ∧ r.fpc = f.fpc ∧ r.seq = s.seqCtr + 1 ∧
      t.seqCtr = s.seqCtr + 1 ∧
      (n = 0 → t.slotD = some r ∧ t.slotS = none ∧ t.bubble = 0 ∧ t.win.w4 = i.effDest) ∧
      (0 < n → t.slotS = some r ∧ t.slotD = none ∧ t.slotF = none ∧ t.bubble = n - 1 ∧
        t.win.w4 = none ∧ Event.stall n ∈ t.trace ∧ Event.bubble ∈ t.trace)

/-- R216, R218: a parked instruction waits while `bubble` is not 0, which falls by one each step, with
the fetch withheld; with `bubble` = 0 it enters D and the fetch runs in the same step. -/
def Obligations.ParkedInstructionIsPromotedAtZero : Prop :=
  ∀ (s : State) (i : Rec), Inv s → RunsPipelined s → s.slotS = some i →
    ∃ t, step s = .next t ∧
      (0 < s.bubble → t.slotS = some i ∧ t.bubble = s.bubble - 1 ∧ t.slotD = none ∧
        t.slotF = none ∧ t.pc = s.pc ∧ Event.bubble ∈ t.trace) ∧
      (s.bubble = 0 → t.slotD = some i ∧ t.slotS = none ∧ t.bubble = 0 ∧
        t.win.w4 = i.instr.effDest ∧ FetchedFrom s t s.pc ∧ Event.promote i ∈ t.trace)

/-- R210, R217, R258 to R261: whenever a step leaves an instruction in D, A and B hold the operands that
program order requires: from Z if the instruction in X writes the register, else from Y if the one
in W does, else from the register file; an immediate stays in B; and the producer in X is never a
load. Without forwarding neither X nor W writes a register the instruction reads. -/
def Obligations.OperandsAreCurrent : Prop :=
  ∀ (s t : State) (i : Rec), Inv s → RunsPipelined s → step s = .next t → t.halted = false →
    t.slotD = some i →
    (∀ r, i.instr.rs1 = some r → t.bufA = bypassed t r) ∧
    (i.instr.rs1 = none → t.bufA = 0#32) ∧
    (∀ r, i.instr.rs2 = some r → t.bufB = bypassed t r) ∧
    (i.instr.rs2 = none → t.bufB = i.instr.imm) ∧
    (DependsOnSlot i.instr t.slotX → t.fwdOn = true ∧ ∀ p, t.slotX = some p → p.instr.isLoad = false) ∧
    (DependsOnSlot i.instr t.slotW → t.fwdOn = true)

/-! # Completion, fatal error, log order -/

/-- R204: a writeback that leaves all five slots empty with no stall pending completes the run: the
register is written and nothing else happens in the step. -/
def Obligations.LastWritebackCompletes : Prop :=
  ∀ (s : State) (i : Rec), RunsPipelined s → s.slotW = some i → s.slotF = none → s.slotD = none →
    s.slotX = none → s.slotS = none → s.bubble = 0 →
    ∃ t, step s = .next t ∧ t.done = true ∧ t.trace = [.wb i, .done] ∧
      (∀ r, t.readReg r = if i.instr.effDest = some r then s.bufY else s.readReg r) ∧
      t = { s with regs := t.regs, slotW := none, done := true, trace := t.trace }

/-- R204, R214, R215: in pipelined mode `done` is set only with all five slots empty, no stall pending and
nothing to fetch at pc; and it is set exactly by a writeback that leaves all five slots empty, or by a
fetch that finds nothing while all five are empty, no stall pending in either case. -/
def Obligations.DoneOnlyWhenDrained : Prop :=
  ∀ s t : State, Inv s → RunsPipelined s → step s = .next t →
    (t.done = true →
      t.slotF = none ∧ t.slotD = none ∧ t.slotX = none ∧ t.slotW = none ∧ t.slotS = none ∧
      t.bubble = 0 ∧ t.ifetch t.pc = none ∧ t.fatal = false) ∧
    (t.done = true ↔
      s.slotF = none ∧ s.slotD = none ∧ s.slotX = none ∧ s.slotS = none ∧ s.bubble = 0 ∧
      (s.slotW ≠ none ∨ s.ifetch s.pc = none))

/-- R302, R309: a decode error in pipelined mode ends the step after the window's shift. The instruction
in W has retired, those in X and D have moved on to W and X; F is empty and the word is in `fatal_info`;
no record was made; pc is past the word; nothing later in the step happened. -/
def Obligations.PipelinedDecodeErrorState : Prop :=
  ∀ (s : State) (f : Fetched), Inv s → RunsPipelined s → NoFlush s → s.slotF = some f →
    (∀ i, decode f.word ≠ .ok i) →
    ∃ t, step s = .next t ∧ t.fatal = true ∧ t.done = false ∧ t.fatalInfo = f.word ∧
      (decode f.word = .unknownOpcode → t.fatalCode = 1#8) ∧
      (decode f.word = .unknownFunct → t.fatalCode = 2#8) ∧
      t.slotF = none ∧ t.slotD = none ∧ t.slotW = s.slotX ∧
      t.slotX.map Rec.instr = s.slotD.map Rec.instr ∧ t.seqCtr = s.seqCtr ∧
      t.pc = f.fpc + 4#32 ∧
      t.win = ⟨s.win.w1, s.win.w2, s.win.w3, s.win.w4, none⟩ ∧
      (∀ r, t.readReg r = if slotDest s.slotW = some r then s.bufY else s.readReg r)

/-- R301, R309: an out-of-range load or store in its memory stage and a division by zero in its execute
stage in the same step are both logged, the older first; the error registers end with the younger.
That the events carry the info is the model's choice (log entry 7). -/
def Obligations.OlderErrorIsLoggedFirst : Prop :=
  ∀ (s t : State) (c : ErrCode) (a : Word), RunsPipelined s → step s = .next t →
    RangeError s c → DivideError s a →
    errorsOf t.trace = [(c, s.bufZ), (.divZero, a)] ∧ Logged t 5#8 a

/-! # The two modes agree (R228) -/

/-- R228, first sentence: if the non-pipelined run ends with `done`, every pipelined run (each of the four
settings, and whatever the sticky bit starts as) ends with `done` and the same registers, memory, pc
and sequence of recoverable errors. -/
def Obligations.PipelinedRunsAgreeWhenDone : Prop :=
  ∀ (p : Params) (im : IMem) (dm sm : Memory) (fwd pred bit : Bool) (n : Nat) (t : State),
    IMem.wf im = true → Memory.wf dm = true → Memory.wf sm = true →
    stepN n (startOf p im dm sm false fwd pred false) = .next t → t.done = true →
    ∃ m u, stepN m (startOf p im dm sm true fwd pred bit) = .next u ∧ u.done = true ∧
      u.regs = t.regs ∧ u.data = t.data ∧ u.stack = t.stack ∧ u.pc = t.pc ∧
      errorLog m (startOf p im dm sm true fwd pred bit) =
        errorLog n (startOf p im dm sm false fwd pred false)

/-- R228, second sentence, and R302: if the non-pipelined run ends with `fatal`, so does every pipelined
run, with the same `fatal_code`, `fatal_info`, pc and number of decoded instructions. Of these all but
those in W and X have retired, at most two: the registers are those the non-pipelined run has, between
two instructions, when as many have retired; and the two byte spaces are those it has when the one in
W has retired too. -/
def Obligations.PipelinedRunsAgreeWhenFatal : Prop :=
  ∀ (p : Params) (im : IMem) (dm sm : Memory) (fwd pred bit : Bool) (n : Nat) (t : State),
    IMem.wf im = true → Memory.wf dm = true → Memory.wf sm = true →
    stepN n (startOf p im dm sm false fwd pred false) = .next t → t.fatal = true →
    ∃ m u, stepN m (startOf p im dm sm true fwd pred bit) = .next u ∧ u.fatal = true ∧
      u.fatalCode = t.fatalCode ∧ u.fatalInfo = t.fatalInfo ∧ u.pc = t.pc ∧ u.seqCtr = t.seqCtr ∧
      u.slotF = none ∧ u.slotD = none ∧ u.slotS = none ∧
      (∃ k v, k ≤ n ∧ stepN k (startOf p im dm sm false fwd pred false) = .next v ∧
        v.phase = .fetch ∧ v.seqCtr + held u.slotW + held u.slotX = t.seqCtr ∧ u.regs = v.regs) ∧
      (∃ k v, k ≤ n ∧ stepN k (startOf p im dm sm false fwd pred false) = .next v ∧
        v.phase = .fetch ∧ v.seqCtr + held u.slotX = t.seqCtr ∧
        u.data = v.data ∧ u.stack = v.stack)

/-! # More of the pipelined step -/

/-- R301, R303, R304, R309: the recoverable errors of a pipelined step are the range error of the one in X,
if it makes one, then the division by zero of the one in D, if it makes one; the error registers hold
the last of them, and are unchanged when there is none. A decode error in the same step erases nothing.
That the events carry the info is the model's choice (log entry 7). -/
def Obligations.PipelinedStepLogsItsErrors : Prop :=
  ∀ s t : State, RunsPipelined s → step s = .next t → ∃ ms es : List (ErrCode × Word),
    errorsOf t.trace = ms ++ es ∧
    (∀ c, RangeError s c → ms = [(c, s.bufZ)]) ∧ ((∀ c, ¬RangeError s c) → ms = []) ∧
    (∀ a, DivideError s a → es = [(.divZero, a)]) ∧ ((∀ a, ¬DivideError s a) → es = []) ∧
    (ms ++ es = [] → ErrorsKept s t) ∧
    (∀ c info, (ms ++ es).getLast? = some (c, info) → Logged t (errNumber c) info)

/-- R208, R214, R215: a step that finds the five slots empty, no stall pending and nothing to fetch at pc
completes the run; the window has shifted, and nothing else changed. It is the first step of a program
whose first fetch fails. -/
def Obligations.EmptyPipelineFetchingNothingCompletes : Prop :=
  ∀ s : State, RunsPipelined s → s.slotF = none → s.slotD = none → s.slotX = none → s.slotW = none →
    s.slotS = none → s.bubble = 0 → s.ifetch s.pc = none →
    step s = .next { s with
      win := ⟨s.win.w1, s.win.w2, s.win.w3, s.win.w4, none⟩, done := true,
      trace := [.ifNone, .done] }

/-- R229: in pipelined mode the fifth step retires the word `withFetchWord` places (the model's own
operation, log entry 4), alone in `IMEM`: its writeback is the step's first event, and registers, bytes
and error registers are then those `exec` gives. -/
def Obligations.PlacedWordRetiresInFivePipelinedSteps : Prop :=
  ∀ (s p : State) (i : Instr), i.WellFormed → s.imem = [] → s.params.cfgPipelined = true →
    p = s.withFetchWord 32 (encode i).toNat →
    ∃ t u, stepN 5 p = .next t ∧ exec i p = .next u ∧
      RegsKept u t ∧ t.data = u.data ∧ t.stack = u.stack ∧ ErrorsKept u t ∧
      ∃ r es, t.trace = .wb r :: es ∧ r.instr = i ∧ r.fpc = s.pc
end

