-- ==== Sys2Proof/Laws/State.lean ====
section
/-! SUPPORT. One lemma per field per named update of the state, true by `rfl`, so that no proof unfolds an update. -/

namespace Sys2Proof.Machine

variable (s : State)

/-! `setPc` -/

@[simp] theorem State.setPc_regs (t : Word) : (s.setPc t).regs = s.regs := rfl
@[simp] theorem State.setPc_pc (t : Word) : (s.setPc t).pc = t := rfl
@[simp] theorem State.setPc_bufA (t : Word) : (s.setPc t).bufA = s.bufA := rfl
@[simp] theorem State.setPc_bufB (t : Word) : (s.setPc t).bufB = s.bufB := rfl
@[simp] theorem State.setPc_bufZ (t : Word) : (s.setPc t).bufZ = s.bufZ := rfl
@[simp] theorem State.setPc_bufY (t : Word) : (s.setPc t).bufY = s.bufY := rfl
@[simp] theorem State.setPc_bufM (t : Word) : (s.setPc t).bufM = s.bufM := rfl
@[simp] theorem State.setPc_slotF (t : Word) : (s.setPc t).slotF = s.slotF := rfl
@[simp] theorem State.setPc_slotD (t : Word) : (s.setPc t).slotD = s.slotD := rfl
@[simp] theorem State.setPc_slotX (t : Word) : (s.setPc t).slotX = s.slotX := rfl
@[simp] theorem State.setPc_slotW (t : Word) : (s.setPc t).slotW = s.slotW := rfl
@[simp] theorem State.setPc_slotS (t : Word) : (s.setPc t).slotS = s.slotS := rfl
@[simp] theorem State.setPc_win (t : Word) : (s.setPc t).win = s.win := rfl
@[simp] theorem State.setPc_ftab (t : Word) : (s.setPc t).ftab = s.ftab := rfl
@[simp] theorem State.setPc_bubble (t : Word) : (s.setPc t).bubble = s.bubble := rfl
@[simp] theorem State.setPc_predBit (t : Word) : (s.setPc t).predBit = s.predBit := rfl
@[simp] theorem State.setPc_phase (t : Word) : (s.setPc t).phase = s.phase := rfl
@[simp] theorem State.setPc_done (t : Word) : (s.setPc t).done = s.done := rfl
@[simp] theorem State.setPc_fatal (t : Word) : (s.setPc t).fatal = s.fatal := rfl
@[simp] theorem State.setPc_fatalCode (t : Word) : (s.setPc t).fatalCode = s.fatalCode := rfl
@[simp] theorem State.setPc_fatalInfo (t : Word) : (s.setPc t).fatalInfo = s.fatalInfo := rfl
@[simp] theorem State.setPc_errSeen (t : Word) : (s.setPc t).errSeen = s.errSeen := rfl
@[simp] theorem State.setPc_errCode (t : Word) : (s.setPc t).errCode = s.errCode := rfl
@[simp] theorem State.setPc_errInfo (t : Word) : (s.setPc t).errInfo = s.errInfo := rfl
@[simp] theorem State.setPc_seqCtr (t : Word) : (s.setPc t).seqCtr = s.seqCtr := rfl
@[simp] theorem State.setPc_params (t : Word) : (s.setPc t).params = s.params := rfl
@[simp] theorem State.setPc_imem (t : Word) : (s.setPc t).imem = s.imem := rfl
@[simp] theorem State.setPc_data (t : Word) : (s.setPc t).data = s.data := rfl
@[simp] theorem State.setPc_stack (t : Word) : (s.setPc t).stack = s.stack := rfl
@[simp] theorem State.setPc_trace (t : Word) : (s.setPc t).trace = s.trace := rfl

/-! `setAB` -/

@[simp] theorem State.setAB_regs (a b : Word) : (s.setAB a b).regs = s.regs := rfl
@[simp] theorem State.setAB_pc (a b : Word) : (s.setAB a b).pc = s.pc := rfl
@[simp] theorem State.setAB_bufA (a b : Word) : (s.setAB a b).bufA = a := rfl
@[simp] theorem State.setAB_bufB (a b : Word) : (s.setAB a b).bufB = b := rfl
@[simp] theorem State.setAB_bufZ (a b : Word) : (s.setAB a b).bufZ = s.bufZ := rfl
@[simp] theorem State.setAB_bufY (a b : Word) : (s.setAB a b).bufY = s.bufY := rfl
@[simp] theorem State.setAB_bufM (a b : Word) : (s.setAB a b).bufM = s.bufM := rfl
@[simp] theorem State.setAB_slotF (a b : Word) : (s.setAB a b).slotF = s.slotF := rfl
@[simp] theorem State.setAB_slotD (a b : Word) : (s.setAB a b).slotD = s.slotD := rfl
@[simp] theorem State.setAB_slotX (a b : Word) : (s.setAB a b).slotX = s.slotX := rfl
@[simp] theorem State.setAB_slotW (a b : Word) : (s.setAB a b).slotW = s.slotW := rfl
@[simp] theorem State.setAB_slotS (a b : Word) : (s.setAB a b).slotS = s.slotS := rfl
@[simp] theorem State.setAB_win (a b : Word) : (s.setAB a b).win = s.win := rfl
@[simp] theorem State.setAB_ftab (a b : Word) : (s.setAB a b).ftab = s.ftab := rfl
@[simp] theorem State.setAB_bubble (a b : Word) : (s.setAB a b).bubble = s.bubble := rfl
@[simp] theorem State.setAB_predBit (a b : Word) : (s.setAB a b).predBit = s.predBit := rfl
@[simp] theorem State.setAB_phase (a b : Word) : (s.setAB a b).phase = s.phase := rfl
@[simp] theorem State.setAB_done (a b : Word) : (s.setAB a b).done = s.done := rfl
@[simp] theorem State.setAB_fatal (a b : Word) : (s.setAB a b).fatal = s.fatal := rfl
@[simp] theorem State.setAB_fatalCode (a b : Word) : (s.setAB a b).fatalCode = s.fatalCode := rfl
@[simp] theorem State.setAB_fatalInfo (a b : Word) : (s.setAB a b).fatalInfo = s.fatalInfo := rfl
@[simp] theorem State.setAB_errSeen (a b : Word) : (s.setAB a b).errSeen = s.errSeen := rfl
@[simp] theorem State.setAB_errCode (a b : Word) : (s.setAB a b).errCode = s.errCode := rfl
@[simp] theorem State.setAB_errInfo (a b : Word) : (s.setAB a b).errInfo = s.errInfo := rfl
@[simp] theorem State.setAB_seqCtr (a b : Word) : (s.setAB a b).seqCtr = s.seqCtr := rfl
@[simp] theorem State.setAB_params (a b : Word) : (s.setAB a b).params = s.params := rfl
@[simp] theorem State.setAB_imem (a b : Word) : (s.setAB a b).imem = s.imem := rfl
@[simp] theorem State.setAB_data (a b : Word) : (s.setAB a b).data = s.data := rfl
@[simp] theorem State.setAB_stack (a b : Word) : (s.setAB a b).stack = s.stack := rfl
@[simp] theorem State.setAB_trace (a b : Word) : (s.setAB a b).trace = s.trace := rfl

/-! `setA` -/

@[simp] theorem State.setA_regs (a : Word) : (s.setA a).regs = s.regs := rfl
@[simp] theorem State.setA_pc (a : Word) : (s.setA a).pc = s.pc := rfl
@[simp] theorem State.setA_bufA (a : Word) : (s.setA a).bufA = a := rfl
@[simp] theorem State.setA_bufB (a : Word) : (s.setA a).bufB = s.bufB := rfl
@[simp] theorem State.setA_bufZ (a : Word) : (s.setA a).bufZ = s.bufZ := rfl
@[simp] theorem State.setA_bufY (a : Word) : (s.setA a).bufY = s.bufY := rfl
@[simp] theorem State.setA_bufM (a : Word) : (s.setA a).bufM = s.bufM := rfl
@[simp] theorem State.setA_slotF (a : Word) : (s.setA a).slotF = s.slotF := rfl
@[simp] theorem State.setA_slotD (a : Word) : (s.setA a).slotD = s.slotD := rfl
@[simp] theorem State.setA_slotX (a : Word) : (s.setA a).slotX = s.slotX := rfl
@[simp] theorem State.setA_slotW (a : Word) : (s.setA a).slotW = s.slotW := rfl
@[simp] theorem State.setA_slotS (a : Word) : (s.setA a).slotS = s.slotS := rfl
@[simp] theorem State.setA_win (a : Word) : (s.setA a).win = s.win := rfl
@[simp] theorem State.setA_ftab (a : Word) : (s.setA a).ftab = s.ftab := rfl
@[simp] theorem State.setA_bubble (a : Word) : (s.setA a).bubble = s.bubble := rfl
@[simp] theorem State.setA_predBit (a : Word) : (s.setA a).predBit = s.predBit := rfl
@[simp] theorem State.setA_phase (a : Word) : (s.setA a).phase = s.phase := rfl
@[simp] theorem State.setA_done (a : Word) : (s.setA a).done = s.done := rfl
@[simp] theorem State.setA_fatal (a : Word) : (s.setA a).fatal = s.fatal := rfl
@[simp] theorem State.setA_fatalCode (a : Word) : (s.setA a).fatalCode = s.fatalCode := rfl
@[simp] theorem State.setA_fatalInfo (a : Word) : (s.setA a).fatalInfo = s.fatalInfo := rfl
@[simp] theorem State.setA_errSeen (a : Word) : (s.setA a).errSeen = s.errSeen := rfl
@[simp] theorem State.setA_errCode (a : Word) : (s.setA a).errCode = s.errCode := rfl
@[simp] theorem State.setA_errInfo (a : Word) : (s.setA a).errInfo = s.errInfo := rfl
@[simp] theorem State.setA_seqCtr (a : Word) : (s.setA a).seqCtr = s.seqCtr := rfl
@[simp] theorem State.setA_params (a : Word) : (s.setA a).params = s.params := rfl
@[simp] theorem State.setA_imem (a : Word) : (s.setA a).imem = s.imem := rfl
@[simp] theorem State.setA_data (a : Word) : (s.setA a).data = s.data := rfl
@[simp] theorem State.setA_stack (a : Word) : (s.setA a).stack = s.stack := rfl
@[simp] theorem State.setA_trace (a : Word) : (s.setA a).trace = s.trace := rfl

/-! `setB` -/

@[simp] theorem State.setB_regs (b : Word) : (s.setB b).regs = s.regs := rfl
@[simp] theorem State.setB_pc (b : Word) : (s.setB b).pc = s.pc := rfl
@[simp] theorem State.setB_bufA (b : Word) : (s.setB b).bufA = s.bufA := rfl
@[simp] theorem State.setB_bufB (b : Word) : (s.setB b).bufB = b := rfl
@[simp] theorem State.setB_bufZ (b : Word) : (s.setB b).bufZ = s.bufZ := rfl
@[simp] theorem State.setB_bufY (b : Word) : (s.setB b).bufY = s.bufY := rfl
@[simp] theorem State.setB_bufM (b : Word) : (s.setB b).bufM = s.bufM := rfl
@[simp] theorem State.setB_slotF (b : Word) : (s.setB b).slotF = s.slotF := rfl
@[simp] theorem State.setB_slotD (b : Word) : (s.setB b).slotD = s.slotD := rfl
@[simp] theorem State.setB_slotX (b : Word) : (s.setB b).slotX = s.slotX := rfl
@[simp] theorem State.setB_slotW (b : Word) : (s.setB b).slotW = s.slotW := rfl
@[simp] theorem State.setB_slotS (b : Word) : (s.setB b).slotS = s.slotS := rfl
@[simp] theorem State.setB_win (b : Word) : (s.setB b).win = s.win := rfl
@[simp] theorem State.setB_ftab (b : Word) : (s.setB b).ftab = s.ftab := rfl
@[simp] theorem State.setB_bubble (b : Word) : (s.setB b).bubble = s.bubble := rfl
@[simp] theorem State.setB_predBit (b : Word) : (s.setB b).predBit = s.predBit := rfl
@[simp] theorem State.setB_phase (b : Word) : (s.setB b).phase = s.phase := rfl
@[simp] theorem State.setB_done (b : Word) : (s.setB b).done = s.done := rfl
@[simp] theorem State.setB_fatal (b : Word) : (s.setB b).fatal = s.fatal := rfl
@[simp] theorem State.setB_fatalCode (b : Word) : (s.setB b).fatalCode = s.fatalCode := rfl
@[simp] theorem State.setB_fatalInfo (b : Word) : (s.setB b).fatalInfo = s.fatalInfo := rfl
@[simp] theorem State.setB_errSeen (b : Word) : (s.setB b).errSeen = s.errSeen := rfl
@[simp] theorem State.setB_errCode (b : Word) : (s.setB b).errCode = s.errCode := rfl
@[simp] theorem State.setB_errInfo (b : Word) : (s.setB b).errInfo = s.errInfo := rfl
@[simp] theorem State.setB_seqCtr (b : Word) : (s.setB b).seqCtr = s.seqCtr := rfl
@[simp] theorem State.setB_params (b : Word) : (s.setB b).params = s.params := rfl
@[simp] theorem State.setB_imem (b : Word) : (s.setB b).imem = s.imem := rfl
@[simp] theorem State.setB_data (b : Word) : (s.setB b).data = s.data := rfl
@[simp] theorem State.setB_stack (b : Word) : (s.setB b).stack = s.stack := rfl
@[simp] theorem State.setB_trace (b : Word) : (s.setB b).trace = s.trace := rfl

/-! `setZ` -/

@[simp] theorem State.setZ_regs (v : Word) : (s.setZ v).regs = s.regs := rfl
@[simp] theorem State.setZ_pc (v : Word) : (s.setZ v).pc = s.pc := rfl
@[simp] theorem State.setZ_bufA (v : Word) : (s.setZ v).bufA = s.bufA := rfl
@[simp] theorem State.setZ_bufB (v : Word) : (s.setZ v).bufB = s.bufB := rfl
@[simp] theorem State.setZ_bufZ (v : Word) : (s.setZ v).bufZ = v := rfl
@[simp] theorem State.setZ_bufY (v : Word) : (s.setZ v).bufY = s.bufY := rfl
@[simp] theorem State.setZ_bufM (v : Word) : (s.setZ v).bufM = s.bufM := rfl
@[simp] theorem State.setZ_slotF (v : Word) : (s.setZ v).slotF = s.slotF := rfl
@[simp] theorem State.setZ_slotD (v : Word) : (s.setZ v).slotD = s.slotD := rfl
@[simp] theorem State.setZ_slotX (v : Word) : (s.setZ v).slotX = s.slotX := rfl
@[simp] theorem State.setZ_slotW (v : Word) : (s.setZ v).slotW = s.slotW := rfl
@[simp] theorem State.setZ_slotS (v : Word) : (s.setZ v).slotS = s.slotS := rfl
@[simp] theorem State.setZ_win (v : Word) : (s.setZ v).win = s.win := rfl
@[simp] theorem State.setZ_ftab (v : Word) : (s.setZ v).ftab = s.ftab := rfl
@[simp] theorem State.setZ_bubble (v : Word) : (s.setZ v).bubble = s.bubble := rfl
@[simp] theorem State.setZ_predBit (v : Word) : (s.setZ v).predBit = s.predBit := rfl
@[simp] theorem State.setZ_phase (v : Word) : (s.setZ v).phase = s.phase := rfl
@[simp] theorem State.setZ_done (v : Word) : (s.setZ v).done = s.done := rfl
@[simp] theorem State.setZ_fatal (v : Word) : (s.setZ v).fatal = s.fatal := rfl
@[simp] theorem State.setZ_fatalCode (v : Word) : (s.setZ v).fatalCode = s.fatalCode := rfl
@[simp] theorem State.setZ_fatalInfo (v : Word) : (s.setZ v).fatalInfo = s.fatalInfo := rfl
@[simp] theorem State.setZ_errSeen (v : Word) : (s.setZ v).errSeen = s.errSeen := rfl
@[simp] theorem State.setZ_errCode (v : Word) : (s.setZ v).errCode = s.errCode := rfl
@[simp] theorem State.setZ_errInfo (v : Word) : (s.setZ v).errInfo = s.errInfo := rfl
@[simp] theorem State.setZ_seqCtr (v : Word) : (s.setZ v).seqCtr = s.seqCtr := rfl
@[simp] theorem State.setZ_params (v : Word) : (s.setZ v).params = s.params := rfl
@[simp] theorem State.setZ_imem (v : Word) : (s.setZ v).imem = s.imem := rfl
@[simp] theorem State.setZ_data (v : Word) : (s.setZ v).data = s.data := rfl
@[simp] theorem State.setZ_stack (v : Word) : (s.setZ v).stack = s.stack := rfl
@[simp] theorem State.setZ_trace (v : Word) : (s.setZ v).trace = s.trace := rfl

/-! `setY` -/

@[simp] theorem State.setY_regs (v : Word) : (s.setY v).regs = s.regs := rfl
@[simp] theorem State.setY_pc (v : Word) : (s.setY v).pc = s.pc := rfl
@[simp] theorem State.setY_bufA (v : Word) : (s.setY v).bufA = s.bufA := rfl
@[simp] theorem State.setY_bufB (v : Word) : (s.setY v).bufB = s.bufB := rfl
@[simp] theorem State.setY_bufZ (v : Word) : (s.setY v).bufZ = s.bufZ := rfl
@[simp] theorem State.setY_bufY (v : Word) : (s.setY v).bufY = v := rfl
@[simp] theorem State.setY_bufM (v : Word) : (s.setY v).bufM = s.bufM := rfl
@[simp] theorem State.setY_slotF (v : Word) : (s.setY v).slotF = s.slotF := rfl
@[simp] theorem State.setY_slotD (v : Word) : (s.setY v).slotD = s.slotD := rfl
@[simp] theorem State.setY_slotX (v : Word) : (s.setY v).slotX = s.slotX := rfl
@[simp] theorem State.setY_slotW (v : Word) : (s.setY v).slotW = s.slotW := rfl
@[simp] theorem State.setY_slotS (v : Word) : (s.setY v).slotS = s.slotS := rfl
@[simp] theorem State.setY_win (v : Word) : (s.setY v).win = s.win := rfl
@[simp] theorem State.setY_ftab (v : Word) : (s.setY v).ftab = s.ftab := rfl
@[simp] theorem State.setY_bubble (v : Word) : (s.setY v).bubble = s.bubble := rfl
@[simp] theorem State.setY_predBit (v : Word) : (s.setY v).predBit = s.predBit := rfl
@[simp] theorem State.setY_phase (v : Word) : (s.setY v).phase = s.phase := rfl
@[simp] theorem State.setY_done (v : Word) : (s.setY v).done = s.done := rfl
@[simp] theorem State.setY_fatal (v : Word) : (s.setY v).fatal = s.fatal := rfl
@[simp] theorem State.setY_fatalCode (v : Word) : (s.setY v).fatalCode = s.fatalCode := rfl
@[simp] theorem State.setY_fatalInfo (v : Word) : (s.setY v).fatalInfo = s.fatalInfo := rfl
@[simp] theorem State.setY_errSeen (v : Word) : (s.setY v).errSeen = s.errSeen := rfl
@[simp] theorem State.setY_errCode (v : Word) : (s.setY v).errCode = s.errCode := rfl
@[simp] theorem State.setY_errInfo (v : Word) : (s.setY v).errInfo = s.errInfo := rfl
@[simp] theorem State.setY_seqCtr (v : Word) : (s.setY v).seqCtr = s.seqCtr := rfl
@[simp] theorem State.setY_params (v : Word) : (s.setY v).params = s.params := rfl
@[simp] theorem State.setY_imem (v : Word) : (s.setY v).imem = s.imem := rfl
@[simp] theorem State.setY_data (v : Word) : (s.setY v).data = s.data := rfl
@[simp] theorem State.setY_stack (v : Word) : (s.setY v).stack = s.stack := rfl
@[simp] theorem State.setY_trace (v : Word) : (s.setY v).trace = s.trace := rfl

/-! `setM` -/

@[simp] theorem State.setM_regs (v : Word) : (s.setM v).regs = s.regs := rfl
@[simp] theorem State.setM_pc (v : Word) : (s.setM v).pc = s.pc := rfl
@[simp] theorem State.setM_bufA (v : Word) : (s.setM v).bufA = s.bufA := rfl
@[simp] theorem State.setM_bufB (v : Word) : (s.setM v).bufB = s.bufB := rfl
@[simp] theorem State.setM_bufZ (v : Word) : (s.setM v).bufZ = s.bufZ := rfl
@[simp] theorem State.setM_bufY (v : Word) : (s.setM v).bufY = s.bufY := rfl
@[simp] theorem State.setM_bufM (v : Word) : (s.setM v).bufM = v := rfl
@[simp] theorem State.setM_slotF (v : Word) : (s.setM v).slotF = s.slotF := rfl
@[simp] theorem State.setM_slotD (v : Word) : (s.setM v).slotD = s.slotD := rfl
@[simp] theorem State.setM_slotX (v : Word) : (s.setM v).slotX = s.slotX := rfl
@[simp] theorem State.setM_slotW (v : Word) : (s.setM v).slotW = s.slotW := rfl
@[simp] theorem State.setM_slotS (v : Word) : (s.setM v).slotS = s.slotS := rfl
@[simp] theorem State.setM_win (v : Word) : (s.setM v).win = s.win := rfl
@[simp] theorem State.setM_ftab (v : Word) : (s.setM v).ftab = s.ftab := rfl
@[simp] theorem State.setM_bubble (v : Word) : (s.setM v).bubble = s.bubble := rfl
@[simp] theorem State.setM_predBit (v : Word) : (s.setM v).predBit = s.predBit := rfl
@[simp] theorem State.setM_phase (v : Word) : (s.setM v).phase = s.phase := rfl
@[simp] theorem State.setM_done (v : Word) : (s.setM v).done = s.done := rfl
@[simp] theorem State.setM_fatal (v : Word) : (s.setM v).fatal = s.fatal := rfl
@[simp] theorem State.setM_fatalCode (v : Word) : (s.setM v).fatalCode = s.fatalCode := rfl
@[simp] theorem State.setM_fatalInfo (v : Word) : (s.setM v).fatalInfo = s.fatalInfo := rfl
@[simp] theorem State.setM_errSeen (v : Word) : (s.setM v).errSeen = s.errSeen := rfl
@[simp] theorem State.setM_errCode (v : Word) : (s.setM v).errCode = s.errCode := rfl
@[simp] theorem State.setM_errInfo (v : Word) : (s.setM v).errInfo = s.errInfo := rfl
@[simp] theorem State.setM_seqCtr (v : Word) : (s.setM v).seqCtr = s.seqCtr := rfl
@[simp] theorem State.setM_params (v : Word) : (s.setM v).params = s.params := rfl
@[simp] theorem State.setM_imem (v : Word) : (s.setM v).imem = s.imem := rfl
@[simp] theorem State.setM_data (v : Word) : (s.setM v).data = s.data := rfl
@[simp] theorem State.setM_stack (v : Word) : (s.setM v).stack = s.stack := rfl
@[simp] theorem State.setM_trace (v : Word) : (s.setM v).trace = s.trace := rfl

/-! `emit` -/

@[simp] theorem State.emit_regs (e : Event) : (s.emit e).regs = s.regs := rfl
@[simp] theorem State.emit_pc (e : Event) : (s.emit e).pc = s.pc := rfl
@[simp] theorem State.emit_bufA (e : Event) : (s.emit e).bufA = s.bufA := rfl
@[simp] theorem State.emit_bufB (e : Event) : (s.emit e).bufB = s.bufB := rfl
@[simp] theorem State.emit_bufZ (e : Event) : (s.emit e).bufZ = s.bufZ := rfl
@[simp] theorem State.emit_bufY (e : Event) : (s.emit e).bufY = s.bufY := rfl
@[simp] theorem State.emit_bufM (e : Event) : (s.emit e).bufM = s.bufM := rfl
@[simp] theorem State.emit_slotF (e : Event) : (s.emit e).slotF = s.slotF := rfl
@[simp] theorem State.emit_slotD (e : Event) : (s.emit e).slotD = s.slotD := rfl
@[simp] theorem State.emit_slotX (e : Event) : (s.emit e).slotX = s.slotX := rfl
@[simp] theorem State.emit_slotW (e : Event) : (s.emit e).slotW = s.slotW := rfl
@[simp] theorem State.emit_slotS (e : Event) : (s.emit e).slotS = s.slotS := rfl
@[simp] theorem State.emit_win (e : Event) : (s.emit e).win = s.win := rfl
@[simp] theorem State.emit_ftab (e : Event) : (s.emit e).ftab = s.ftab := rfl
@[simp] theorem State.emit_bubble (e : Event) : (s.emit e).bubble = s.bubble := rfl
@[simp] theorem State.emit_predBit (e : Event) : (s.emit e).predBit = s.predBit := rfl
@[simp] theorem State.emit_phase (e : Event) : (s.emit e).phase = s.phase := rfl
@[simp] theorem State.emit_done (e : Event) : (s.emit e).done = s.done := rfl
@[simp] theorem State.emit_fatal (e : Event) : (s.emit e).fatal = s.fatal := rfl
@[simp] theorem State.emit_fatalCode (e : Event) : (s.emit e).fatalCode = s.fatalCode := rfl
@[simp] theorem State.emit_fatalInfo (e : Event) : (s.emit e).fatalInfo = s.fatalInfo := rfl
@[simp] theorem State.emit_errSeen (e : Event) : (s.emit e).errSeen = s.errSeen := rfl
@[simp] theorem State.emit_errCode (e : Event) : (s.emit e).errCode = s.errCode := rfl
@[simp] theorem State.emit_errInfo (e : Event) : (s.emit e).errInfo = s.errInfo := rfl
@[simp] theorem State.emit_seqCtr (e : Event) : (s.emit e).seqCtr = s.seqCtr := rfl
@[simp] theorem State.emit_params (e : Event) : (s.emit e).params = s.params := rfl
@[simp] theorem State.emit_imem (e : Event) : (s.emit e).imem = s.imem := rfl
@[simp] theorem State.emit_data (e : Event) : (s.emit e).data = s.data := rfl
@[simp] theorem State.emit_stack (e : Event) : (s.emit e).stack = s.stack := rfl
@[simp] theorem State.emit_trace (e : Event) : (s.emit e).trace = s.trace ++ [e] := rfl

/-! `beginStep` -/

@[simp] theorem State.beginStep_regs : (s.beginStep).regs = s.regs := rfl
@[simp] theorem State.beginStep_pc : (s.beginStep).pc = s.pc := rfl
@[simp] theorem State.beginStep_bufA : (s.beginStep).bufA = s.bufA := rfl
@[simp] theorem State.beginStep_bufB : (s.beginStep).bufB = s.bufB := rfl
@[simp] theorem State.beginStep_bufZ : (s.beginStep).bufZ = s.bufZ := rfl
@[simp] theorem State.beginStep_bufY : (s.beginStep).bufY = s.bufY := rfl
@[simp] theorem State.beginStep_bufM : (s.beginStep).bufM = s.bufM := rfl
@[simp] theorem State.beginStep_slotF : (s.beginStep).slotF = s.slotF := rfl
@[simp] theorem State.beginStep_slotD : (s.beginStep).slotD = s.slotD := rfl
@[simp] theorem State.beginStep_slotX : (s.beginStep).slotX = s.slotX := rfl
@[simp] theorem State.beginStep_slotW : (s.beginStep).slotW = s.slotW := rfl
@[simp] theorem State.beginStep_slotS : (s.beginStep).slotS = s.slotS := rfl
@[simp] theorem State.beginStep_win : (s.beginStep).win = s.win := rfl
@[simp] theorem State.beginStep_ftab : (s.beginStep).ftab = s.ftab := rfl
@[simp] theorem State.beginStep_bubble : (s.beginStep).bubble = s.bubble := rfl
@[simp] theorem State.beginStep_predBit : (s.beginStep).predBit = s.predBit := rfl
@[simp] theorem State.beginStep_phase : (s.beginStep).phase = s.phase := rfl
@[simp] theorem State.beginStep_done : (s.beginStep).done = s.done := rfl
@[simp] theorem State.beginStep_fatal : (s.beginStep).fatal = s.fatal := rfl
@[simp] theorem State.beginStep_fatalCode : (s.beginStep).fatalCode = s.fatalCode := rfl
@[simp] theorem State.beginStep_fatalInfo : (s.beginStep).fatalInfo = s.fatalInfo := rfl
@[simp] theorem State.beginStep_errSeen : (s.beginStep).errSeen = s.errSeen := rfl
@[simp] theorem State.beginStep_errCode : (s.beginStep).errCode = s.errCode := rfl
@[simp] theorem State.beginStep_errInfo : (s.beginStep).errInfo = s.errInfo := rfl
@[simp] theorem State.beginStep_seqCtr : (s.beginStep).seqCtr = s.seqCtr := rfl
@[simp] theorem State.beginStep_params : (s.beginStep).params = s.params := rfl
@[simp] theorem State.beginStep_imem : (s.beginStep).imem = s.imem := rfl
@[simp] theorem State.beginStep_data : (s.beginStep).data = s.data := rfl
@[simp] theorem State.beginStep_stack : (s.beginStep).stack = s.stack := rfl
@[simp] theorem State.beginStep_trace : (s.beginStep).trace = [] := rfl

/-! `log` -/

@[simp] theorem State.log_regs (c : ErrCode) (w : Word) : (s.log c w).regs = s.regs := rfl
@[simp] theorem State.log_pc (c : ErrCode) (w : Word) : (s.log c w).pc = s.pc := rfl
@[simp] theorem State.log_bufA (c : ErrCode) (w : Word) : (s.log c w).bufA = s.bufA := rfl
@[simp] theorem State.log_bufB (c : ErrCode) (w : Word) : (s.log c w).bufB = s.bufB := rfl
@[simp] theorem State.log_bufZ (c : ErrCode) (w : Word) : (s.log c w).bufZ = s.bufZ := rfl
@[simp] theorem State.log_bufY (c : ErrCode) (w : Word) : (s.log c w).bufY = s.bufY := rfl
@[simp] theorem State.log_bufM (c : ErrCode) (w : Word) : (s.log c w).bufM = s.bufM := rfl
@[simp] theorem State.log_slotF (c : ErrCode) (w : Word) : (s.log c w).slotF = s.slotF := rfl
@[simp] theorem State.log_slotD (c : ErrCode) (w : Word) : (s.log c w).slotD = s.slotD := rfl
@[simp] theorem State.log_slotX (c : ErrCode) (w : Word) : (s.log c w).slotX = s.slotX := rfl
@[simp] theorem State.log_slotW (c : ErrCode) (w : Word) : (s.log c w).slotW = s.slotW := rfl
@[simp] theorem State.log_slotS (c : ErrCode) (w : Word) : (s.log c w).slotS = s.slotS := rfl
@[simp] theorem State.log_win (c : ErrCode) (w : Word) : (s.log c w).win = s.win := rfl
@[simp] theorem State.log_ftab (c : ErrCode) (w : Word) : (s.log c w).ftab = s.ftab := rfl
@[simp] theorem State.log_bubble (c : ErrCode) (w : Word) : (s.log c w).bubble = s.bubble := rfl
@[simp] theorem State.log_predBit (c : ErrCode) (w : Word) : (s.log c w).predBit = s.predBit := rfl
@[simp] theorem State.log_phase (c : ErrCode) (w : Word) : (s.log c w).phase = s.phase := rfl
@[simp] theorem State.log_done (c : ErrCode) (w : Word) : (s.log c w).done = s.done := rfl
@[simp] theorem State.log_fatal (c : ErrCode) (w : Word) : (s.log c w).fatal = s.fatal := rfl
@[simp] theorem State.log_fatalCode (c : ErrCode) (w : Word) : (s.log c w).fatalCode = s.fatalCode := rfl
@[simp] theorem State.log_fatalInfo (c : ErrCode) (w : Word) : (s.log c w).fatalInfo = s.fatalInfo := rfl
@[simp] theorem State.log_errSeen (c : ErrCode) (w : Word) : (s.log c w).errSeen = true := rfl
@[simp] theorem State.log_errCode (c : ErrCode) (w : Word) : (s.log c w).errCode = c.num := rfl
@[simp] theorem State.log_errInfo (c : ErrCode) (w : Word) : (s.log c w).errInfo = w := rfl
@[simp] theorem State.log_seqCtr (c : ErrCode) (w : Word) : (s.log c w).seqCtr = s.seqCtr := rfl
@[simp] theorem State.log_params (c : ErrCode) (w : Word) : (s.log c w).params = s.params := rfl
@[simp] theorem State.log_imem (c : ErrCode) (w : Word) : (s.log c w).imem = s.imem := rfl
@[simp] theorem State.log_data (c : ErrCode) (w : Word) : (s.log c w).data = s.data := rfl
@[simp] theorem State.log_stack (c : ErrCode) (w : Word) : (s.log c w).stack = s.stack := rfl
@[simp] theorem State.log_trace (c : ErrCode) (w : Word) : (s.log c w).trace = s.trace ++ [.err c w] := rfl

/-! `raiseFatal` -/

@[simp] theorem State.raiseFatal_regs (c : ErrCode) (w : Word) : (s.raiseFatal c w).regs = s.regs := rfl
@[simp] theorem State.raiseFatal_pc (c : ErrCode) (w : Word) : (s.raiseFatal c w).pc = s.pc := rfl
@[simp] theorem State.raiseFatal_bufA (c : ErrCode) (w : Word) : (s.raiseFatal c w).bufA = s.bufA := rfl
@[simp] theorem State.raiseFatal_bufB (c : ErrCode) (w : Word) : (s.raiseFatal c w).bufB = s.bufB := rfl
@[simp] theorem State.raiseFatal_bufZ (c : ErrCode) (w : Word) : (s.raiseFatal c w).bufZ = s.bufZ := rfl
@[simp] theorem State.raiseFatal_bufY (c : ErrCode) (w : Word) : (s.raiseFatal c w).bufY = s.bufY := rfl
@[simp] theorem State.raiseFatal_bufM (c : ErrCode) (w : Word) : (s.raiseFatal c w).bufM = s.bufM := rfl
@[simp] theorem State.raiseFatal_slotF (c : ErrCode) (w : Word) : (s.raiseFatal c w).slotF = s.slotF := rfl
@[simp] theorem State.raiseFatal_slotD (c : ErrCode) (w : Word) : (s.raiseFatal c w).slotD = s.slotD := rfl
@[simp] theorem State.raiseFatal_slotX (c : ErrCode) (w : Word) : (s.raiseFatal c w).slotX = s.slotX := rfl
@[simp] theorem State.raiseFatal_slotW (c : ErrCode) (w : Word) : (s.raiseFatal c w).slotW = s.slotW := rfl
@[simp] theorem State.raiseFatal_slotS (c : ErrCode) (w : Word) : (s.raiseFatal c w).slotS = s.slotS := rfl
@[simp] theorem State.raiseFatal_win (c : ErrCode) (w : Word) : (s.raiseFatal c w).win = s.win := rfl
@[simp] theorem State.raiseFatal_ftab (c : ErrCode) (w : Word) : (s.raiseFatal c w).ftab = s.ftab := rfl
@[simp] theorem State.raiseFatal_bubble (c : ErrCode) (w : Word) : (s.raiseFatal c w).bubble = s.bubble := rfl
@[simp] theorem State.raiseFatal_predBit (c : ErrCode) (w : Word) : (s.raiseFatal c w).predBit = s.predBit := rfl
@[simp] theorem State.raiseFatal_phase (c : ErrCode) (w : Word) : (s.raiseFatal c w).phase = s.phase := rfl
@[simp] theorem State.raiseFatal_done (c : ErrCode) (w : Word) : (s.raiseFatal c w).done = s.done := rfl
@[simp] theorem State.raiseFatal_fatal (c : ErrCode) (w : Word) : (s.raiseFatal c w).fatal = true := rfl
@[simp] theorem State.raiseFatal_fatalCode (c : ErrCode) (w : Word) : (s.raiseFatal c w).fatalCode = c.num := rfl
@[simp] theorem State.raiseFatal_fatalInfo (c : ErrCode) (w : Word) : (s.raiseFatal c w).fatalInfo = w := rfl
@[simp] theorem State.raiseFatal_errSeen (c : ErrCode) (w : Word) : (s.raiseFatal c w).errSeen = s.errSeen := rfl
@[simp] theorem State.raiseFatal_errCode (c : ErrCode) (w : Word) : (s.raiseFatal c w).errCode = s.errCode := rfl
@[simp] theorem State.raiseFatal_errInfo (c : ErrCode) (w : Word) : (s.raiseFatal c w).errInfo = s.errInfo := rfl
@[simp] theorem State.raiseFatal_seqCtr (c : ErrCode) (w : Word) : (s.raiseFatal c w).seqCtr = s.seqCtr := rfl
@[simp] theorem State.raiseFatal_params (c : ErrCode) (w : Word) : (s.raiseFatal c w).params = s.params := rfl
@[simp] theorem State.raiseFatal_imem (c : ErrCode) (w : Word) : (s.raiseFatal c w).imem = s.imem := rfl
@[simp] theorem State.raiseFatal_data (c : ErrCode) (w : Word) : (s.raiseFatal c w).data = s.data := rfl
@[simp] theorem State.raiseFatal_stack (c : ErrCode) (w : Word) : (s.raiseFatal c w).stack = s.stack := rfl
@[simp] theorem State.raiseFatal_trace (c : ErrCode) (w : Word) : (s.raiseFatal c w).trace = s.trace ++ [.fatal c w] := rfl

/-! `finish` -/

@[simp] theorem State.finish_regs : (s.finish).regs = s.regs := rfl
@[simp] theorem State.finish_pc : (s.finish).pc = s.pc := rfl
@[simp] theorem State.finish_bufA : (s.finish).bufA = s.bufA := rfl
@[simp] theorem State.finish_bufB : (s.finish).bufB = s.bufB := rfl
@[simp] theorem State.finish_bufZ : (s.finish).bufZ = s.bufZ := rfl
@[simp] theorem State.finish_bufY : (s.finish).bufY = s.bufY := rfl
@[simp] theorem State.finish_bufM : (s.finish).bufM = s.bufM := rfl
@[simp] theorem State.finish_slotF : (s.finish).slotF = s.slotF := rfl
@[simp] theorem State.finish_slotD : (s.finish).slotD = s.slotD := rfl
@[simp] theorem State.finish_slotX : (s.finish).slotX = s.slotX := rfl
@[simp] theorem State.finish_slotW : (s.finish).slotW = s.slotW := rfl
@[simp] theorem State.finish_slotS : (s.finish).slotS = s.slotS := rfl
@[simp] theorem State.finish_win : (s.finish).win = s.win := rfl
@[simp] theorem State.finish_ftab : (s.finish).ftab = s.ftab := rfl
@[simp] theorem State.finish_bubble : (s.finish).bubble = s.bubble := rfl
@[simp] theorem State.finish_predBit : (s.finish).predBit = s.predBit := rfl
@[simp] theorem State.finish_phase : (s.finish).phase = s.phase := rfl
@[simp] theorem State.finish_done : (s.finish).done = true := rfl
@[simp] theorem State.finish_fatal : (s.finish).fatal = s.fatal := rfl
@[simp] theorem State.finish_fatalCode : (s.finish).fatalCode = s.fatalCode := rfl
@[simp] theorem State.finish_fatalInfo : (s.finish).fatalInfo = s.fatalInfo := rfl
@[simp] theorem State.finish_errSeen : (s.finish).errSeen = s.errSeen := rfl
@[simp] theorem State.finish_errCode : (s.finish).errCode = s.errCode := rfl
@[simp] theorem State.finish_errInfo : (s.finish).errInfo = s.errInfo := rfl
@[simp] theorem State.finish_seqCtr : (s.finish).seqCtr = s.seqCtr := rfl
@[simp] theorem State.finish_params : (s.finish).params = s.params := rfl
@[simp] theorem State.finish_imem : (s.finish).imem = s.imem := rfl
@[simp] theorem State.finish_data : (s.finish).data = s.data := rfl
@[simp] theorem State.finish_stack : (s.finish).stack = s.stack := rfl
@[simp] theorem State.finish_trace : (s.finish).trace = s.trace ++ [.done] := rfl

/-! `writeReg` -/

@[simp] theorem State.writeReg_pc (r : Reg) (v : Word) : (s.writeReg r v).pc = s.pc := rfl
@[simp] theorem State.writeReg_bufA (r : Reg) (v : Word) : (s.writeReg r v).bufA = s.bufA := rfl
@[simp] theorem State.writeReg_bufB (r : Reg) (v : Word) : (s.writeReg r v).bufB = s.bufB := rfl
@[simp] theorem State.writeReg_bufZ (r : Reg) (v : Word) : (s.writeReg r v).bufZ = s.bufZ := rfl
@[simp] theorem State.writeReg_bufY (r : Reg) (v : Word) : (s.writeReg r v).bufY = s.bufY := rfl
@[simp] theorem State.writeReg_bufM (r : Reg) (v : Word) : (s.writeReg r v).bufM = s.bufM := rfl
@[simp] theorem State.writeReg_slotF (r : Reg) (v : Word) : (s.writeReg r v).slotF = s.slotF := rfl
@[simp] theorem State.writeReg_slotD (r : Reg) (v : Word) : (s.writeReg r v).slotD = s.slotD := rfl
@[simp] theorem State.writeReg_slotX (r : Reg) (v : Word) : (s.writeReg r v).slotX = s.slotX := rfl
@[simp] theorem State.writeReg_slotW (r : Reg) (v : Word) : (s.writeReg r v).slotW = s.slotW := rfl
@[simp] theorem State.writeReg_slotS (r : Reg) (v : Word) : (s.writeReg r v).slotS = s.slotS := rfl
@[simp] theorem State.writeReg_win (r : Reg) (v : Word) : (s.writeReg r v).win = s.win := rfl
@[simp] theorem State.writeReg_ftab (r : Reg) (v : Word) : (s.writeReg r v).ftab = s.ftab := rfl
@[simp] theorem State.writeReg_bubble (r : Reg) (v : Word) : (s.writeReg r v).bubble = s.bubble := rfl
@[simp] theorem State.writeReg_predBit (r : Reg) (v : Word) : (s.writeReg r v).predBit = s.predBit := rfl
@[simp] theorem State.writeReg_phase (r : Reg) (v : Word) : (s.writeReg r v).phase = s.phase := rfl
@[simp] theorem State.writeReg_done (r : Reg) (v : Word) : (s.writeReg r v).done = s.done := rfl
@[simp] theorem State.writeReg_fatal (r : Reg) (v : Word) : (s.writeReg r v).fatal = s.fatal := rfl
@[simp] theorem State.writeReg_fatalCode (r : Reg) (v : Word) : (s.writeReg r v).fatalCode = s.fatalCode := rfl
@[simp] theorem State.writeReg_fatalInfo (r : Reg) (v : Word) : (s.writeReg r v).fatalInfo = s.fatalInfo := rfl
@[simp] theorem State.writeReg_errSeen (r : Reg) (v : Word) : (s.writeReg r v).errSeen = s.errSeen := rfl
@[simp] theorem State.writeReg_errCode (r : Reg) (v : Word) : (s.writeReg r v).errCode = s.errCode := rfl
@[simp] theorem State.writeReg_errInfo (r : Reg) (v : Word) : (s.writeReg r v).errInfo = s.errInfo := rfl
@[simp] theorem State.writeReg_seqCtr (r : Reg) (v : Word) : (s.writeReg r v).seqCtr = s.seqCtr := rfl
@[simp] theorem State.writeReg_params (r : Reg) (v : Word) : (s.writeReg r v).params = s.params := rfl
@[simp] theorem State.writeReg_imem (r : Reg) (v : Word) : (s.writeReg r v).imem = s.imem := rfl
@[simp] theorem State.writeReg_data (r : Reg) (v : Word) : (s.writeReg r v).data = s.data := rfl
@[simp] theorem State.writeReg_stack (r : Reg) (v : Word) : (s.writeReg r v).stack = s.stack := rfl
@[simp] theorem State.writeReg_trace (r : Reg) (v : Word) : (s.writeReg r v).trace = s.trace := rfl

/-! `countDecode` -/

@[simp] theorem State.countDecode_regs : (s.countDecode).regs = s.regs := rfl
@[simp] theorem State.countDecode_pc : (s.countDecode).pc = s.pc := rfl
@[simp] theorem State.countDecode_bufA : (s.countDecode).bufA = s.bufA := rfl
@[simp] theorem State.countDecode_bufB : (s.countDecode).bufB = s.bufB := rfl
@[simp] theorem State.countDecode_bufZ : (s.countDecode).bufZ = s.bufZ := rfl
@[simp] theorem State.countDecode_bufY : (s.countDecode).bufY = s.bufY := rfl
@[simp] theorem State.countDecode_bufM : (s.countDecode).bufM = s.bufM := rfl
@[simp] theorem State.countDecode_slotF : (s.countDecode).slotF = s.slotF := rfl
@[simp] theorem State.countDecode_slotD : (s.countDecode).slotD = s.slotD := rfl
@[simp] theorem State.countDecode_slotX : (s.countDecode).slotX = s.slotX := rfl
@[simp] theorem State.countDecode_slotW : (s.countDecode).slotW = s.slotW := rfl
@[simp] theorem State.countDecode_slotS : (s.countDecode).slotS = s.slotS := rfl
@[simp] theorem State.countDecode_win : (s.countDecode).win = s.win := rfl
@[simp] theorem State.countDecode_ftab : (s.countDecode).ftab = s.ftab := rfl
@[simp] theorem State.countDecode_bubble : (s.countDecode).bubble = s.bubble := rfl
@[simp] theorem State.countDecode_predBit : (s.countDecode).predBit = s.predBit := rfl
@[simp] theorem State.countDecode_phase : (s.countDecode).phase = s.phase := rfl
@[simp] theorem State.countDecode_done : (s.countDecode).done = s.done := rfl
@[simp] theorem State.countDecode_fatal : (s.countDecode).fatal = s.fatal := rfl
@[simp] theorem State.countDecode_fatalCode : (s.countDecode).fatalCode = s.fatalCode := rfl
@[simp] theorem State.countDecode_fatalInfo : (s.countDecode).fatalInfo = s.fatalInfo := rfl
@[simp] theorem State.countDecode_errSeen : (s.countDecode).errSeen = s.errSeen := rfl
@[simp] theorem State.countDecode_errCode : (s.countDecode).errCode = s.errCode := rfl
@[simp] theorem State.countDecode_errInfo : (s.countDecode).errInfo = s.errInfo := rfl
@[simp] theorem State.countDecode_seqCtr : (s.countDecode).seqCtr = s.seqCtr + 1 := rfl
@[simp] theorem State.countDecode_params : (s.countDecode).params = s.params := rfl
@[simp] theorem State.countDecode_imem : (s.countDecode).imem = s.imem := rfl
@[simp] theorem State.countDecode_data : (s.countDecode).data = s.data := rfl
@[simp] theorem State.countDecode_stack : (s.countDecode).stack = s.stack := rfl
@[simp] theorem State.countDecode_trace : (s.countDecode).trace = s.trace := rfl

/-! `addForwards` -/

@[simp] theorem State.addForwards_regs (es : List FwdEntry) : (s.addForwards es).regs = s.regs := rfl
@[simp] theorem State.addForwards_pc (es : List FwdEntry) : (s.addForwards es).pc = s.pc := rfl
@[simp] theorem State.addForwards_bufA (es : List FwdEntry) : (s.addForwards es).bufA = s.bufA := rfl
@[simp] theorem State.addForwards_bufB (es : List FwdEntry) : (s.addForwards es).bufB = s.bufB := rfl
@[simp] theorem State.addForwards_bufZ (es : List FwdEntry) : (s.addForwards es).bufZ = s.bufZ := rfl
@[simp] theorem State.addForwards_bufY (es : List FwdEntry) : (s.addForwards es).bufY = s.bufY := rfl
@[simp] theorem State.addForwards_bufM (es : List FwdEntry) : (s.addForwards es).bufM = s.bufM := rfl
@[simp] theorem State.addForwards_slotF (es : List FwdEntry) : (s.addForwards es).slotF = s.slotF := rfl
@[simp] theorem State.addForwards_slotD (es : List FwdEntry) : (s.addForwards es).slotD = s.slotD := rfl
@[simp] theorem State.addForwards_slotX (es : List FwdEntry) : (s.addForwards es).slotX = s.slotX := rfl
@[simp] theorem State.addForwards_slotW (es : List FwdEntry) : (s.addForwards es).slotW = s.slotW := rfl
@[simp] theorem State.addForwards_slotS (es : List FwdEntry) : (s.addForwards es).slotS = s.slotS := rfl
@[simp] theorem State.addForwards_win (es : List FwdEntry) : (s.addForwards es).win = s.win := rfl
@[simp] theorem State.addForwards_ftab (es : List FwdEntry) : (s.addForwards es).ftab = s.ftab ++ es := rfl
@[simp] theorem State.addForwards_bubble (es : List FwdEntry) : (s.addForwards es).bubble = s.bubble := rfl
@[simp] theorem State.addForwards_predBit (es : List FwdEntry) : (s.addForwards es).predBit = s.predBit := rfl
@[simp] theorem State.addForwards_phase (es : List FwdEntry) : (s.addForwards es).phase = s.phase := rfl
@[simp] theorem State.addForwards_done (es : List FwdEntry) : (s.addForwards es).done = s.done := rfl
@[simp] theorem State.addForwards_fatal (es : List FwdEntry) : (s.addForwards es).fatal = s.fatal := rfl
@[simp] theorem State.addForwards_fatalCode (es : List FwdEntry) : (s.addForwards es).fatalCode = s.fatalCode := rfl
@[simp] theorem State.addForwards_fatalInfo (es : List FwdEntry) : (s.addForwards es).fatalInfo = s.fatalInfo := rfl
@[simp] theorem State.addForwards_errSeen (es : List FwdEntry) : (s.addForwards es).errSeen = s.errSeen := rfl
@[simp] theorem State.addForwards_errCode (es : List FwdEntry) : (s.addForwards es).errCode = s.errCode := rfl
@[simp] theorem State.addForwards_errInfo (es : List FwdEntry) : (s.addForwards es).errInfo = s.errInfo := rfl
@[simp] theorem State.addForwards_seqCtr (es : List FwdEntry) : (s.addForwards es).seqCtr = s.seqCtr := rfl
@[simp] theorem State.addForwards_params (es : List FwdEntry) : (s.addForwards es).params = s.params := rfl
@[simp] theorem State.addForwards_imem (es : List FwdEntry) : (s.addForwards es).imem = s.imem := rfl
@[simp] theorem State.addForwards_data (es : List FwdEntry) : (s.addForwards es).data = s.data := rfl
@[simp] theorem State.addForwards_stack (es : List FwdEntry) : (s.addForwards es).stack = s.stack := rfl
@[simp] theorem State.addForwards_trace (es : List FwdEntry) : (s.addForwards es).trace = s.trace := rfl

/-! `flushTo` -/

@[simp] theorem State.flushTo_regs (t : Word) : (s.flushTo t).regs = s.regs := rfl
@[simp] theorem State.flushTo_pc (t : Word) : (s.flushTo t).pc = t := rfl
@[simp] theorem State.flushTo_bufA (t : Word) : (s.flushTo t).bufA = s.bufA := rfl
@[simp] theorem State.flushTo_bufB (t : Word) : (s.flushTo t).bufB = s.bufB := rfl
@[simp] theorem State.flushTo_bufZ (t : Word) : (s.flushTo t).bufZ = s.bufZ := rfl
@[simp] theorem State.flushTo_bufY (t : Word) : (s.flushTo t).bufY = s.bufY := rfl
@[simp] theorem State.flushTo_bufM (t : Word) : (s.flushTo t).bufM = s.bufM := rfl
@[simp] theorem State.flushTo_slotF (t : Word) : (s.flushTo t).slotF = none := rfl
@[simp] theorem State.flushTo_slotD (t : Word) : (s.flushTo t).slotD = s.slotD := rfl
@[simp] theorem State.flushTo_slotX (t : Word) : (s.flushTo t).slotX = s.slotX := rfl
@[simp] theorem State.flushTo_slotW (t : Word) : (s.flushTo t).slotW = s.slotW := rfl
@[simp] theorem State.flushTo_slotS (t : Word) : (s.flushTo t).slotS = s.slotS := rfl
@[simp] theorem State.flushTo_win (t : Word) : (s.flushTo t).win = s.win := rfl
@[simp] theorem State.flushTo_ftab (t : Word) : (s.flushTo t).ftab = s.ftab := rfl
@[simp] theorem State.flushTo_bubble (t : Word) : (s.flushTo t).bubble = s.bubble := rfl
@[simp] theorem State.flushTo_predBit (t : Word) : (s.flushTo t).predBit = s.predBit := rfl
@[simp] theorem State.flushTo_phase (t : Word) : (s.flushTo t).phase = s.phase := rfl
@[simp] theorem State.flushTo_done (t : Word) : (s.flushTo t).done = s.done := rfl
@[simp] theorem State.flushTo_fatal (t : Word) : (s.flushTo t).fatal = s.fatal := rfl
@[simp] theorem State.flushTo_fatalCode (t : Word) : (s.flushTo t).fatalCode = s.fatalCode := rfl
@[simp] theorem State.flushTo_fatalInfo (t : Word) : (s.flushTo t).fatalInfo = s.fatalInfo := rfl
@[simp] theorem State.flushTo_errSeen (t : Word) : (s.flushTo t).errSeen = s.errSeen := rfl
@[simp] theorem State.flushTo_errCode (t : Word) : (s.flushTo t).errCode = s.errCode := rfl
@[simp] theorem State.flushTo_errInfo (t : Word) : (s.flushTo t).errInfo = s.errInfo := rfl
@[simp] theorem State.flushTo_seqCtr (t : Word) : (s.flushTo t).seqCtr = s.seqCtr := rfl
@[simp] theorem State.flushTo_params (t : Word) : (s.flushTo t).params = s.params := rfl
@[simp] theorem State.flushTo_imem (t : Word) : (s.flushTo t).imem = s.imem := rfl
@[simp] theorem State.flushTo_data (t : Word) : (s.flushTo t).data = s.data := rfl
@[simp] theorem State.flushTo_stack (t : Word) : (s.flushTo t).stack = s.stack := rfl
@[simp] theorem State.flushTo_trace (t : Word) : (s.flushTo t).trace = s.trace ++ [.flush] := rfl

/-! `updatePredictor` -/

@[simp] theorem State.updatePredictor_regs (i : Rec) : (s.updatePredictor i).regs = s.regs := rfl
@[simp] theorem State.updatePredictor_pc (i : Rec) : (s.updatePredictor i).pc = s.pc := rfl
@[simp] theorem State.updatePredictor_bufA (i : Rec) : (s.updatePredictor i).bufA = s.bufA := rfl
@[simp] theorem State.updatePredictor_bufB (i : Rec) : (s.updatePredictor i).bufB = s.bufB := rfl
@[simp] theorem State.updatePredictor_bufZ (i : Rec) : (s.updatePredictor i).bufZ = s.bufZ := rfl
@[simp] theorem State.updatePredictor_bufY (i : Rec) : (s.updatePredictor i).bufY = s.bufY := rfl
@[simp] theorem State.updatePredictor_bufM (i : Rec) : (s.updatePredictor i).bufM = s.bufM := rfl
@[simp] theorem State.updatePredictor_slotF (i : Rec) : (s.updatePredictor i).slotF = s.slotF := rfl
@[simp] theorem State.updatePredictor_slotD (i : Rec) : (s.updatePredictor i).slotD = s.slotD := rfl
@[simp] theorem State.updatePredictor_slotX (i : Rec) : (s.updatePredictor i).slotX = s.slotX := rfl
@[simp] theorem State.updatePredictor_slotW (i : Rec) : (s.updatePredictor i).slotW = s.slotW := rfl
@[simp] theorem State.updatePredictor_slotS (i : Rec) : (s.updatePredictor i).slotS = s.slotS := rfl
@[simp] theorem State.updatePredictor_win (i : Rec) : (s.updatePredictor i).win = s.win := rfl
@[simp] theorem State.updatePredictor_ftab (i : Rec) : (s.updatePredictor i).ftab = s.ftab := rfl
@[simp] theorem State.updatePredictor_bubble (i : Rec) : (s.updatePredictor i).bubble = s.bubble := rfl
@[simp] theorem State.updatePredictor_predBit (i : Rec) : (s.updatePredictor i).predBit = if s.predOn then i.taken == some true else s.predBit := rfl
@[simp] theorem State.updatePredictor_phase (i : Rec) : (s.updatePredictor i).phase = s.phase := rfl
@[simp] theorem State.updatePredictor_done (i : Rec) : (s.updatePredictor i).done = s.done := rfl
@[simp] theorem State.updatePredictor_fatal (i : Rec) : (s.updatePredictor i).fatal = s.fatal := rfl
@[simp] theorem State.updatePredictor_fatalCode (i : Rec) : (s.updatePredictor i).fatalCode = s.fatalCode := rfl
@[simp] theorem State.updatePredictor_fatalInfo (i : Rec) : (s.updatePredictor i).fatalInfo = s.fatalInfo := rfl
@[simp] theorem State.updatePredictor_errSeen (i : Rec) : (s.updatePredictor i).errSeen = s.errSeen := rfl
@[simp] theorem State.updatePredictor_errCode (i : Rec) : (s.updatePredictor i).errCode = s.errCode := rfl
@[simp] theorem State.updatePredictor_errInfo (i : Rec) : (s.updatePredictor i).errInfo = s.errInfo := rfl
@[simp] theorem State.updatePredictor_seqCtr (i : Rec) : (s.updatePredictor i).seqCtr = s.seqCtr := rfl
@[simp] theorem State.updatePredictor_params (i : Rec) : (s.updatePredictor i).params = s.params := rfl
@[simp] theorem State.updatePredictor_imem (i : Rec) : (s.updatePredictor i).imem = s.imem := rfl
@[simp] theorem State.updatePredictor_data (i : Rec) : (s.updatePredictor i).data = s.data := rfl
@[simp] theorem State.updatePredictor_stack (i : Rec) : (s.updatePredictor i).stack = s.stack := rfl
@[simp] theorem State.updatePredictor_trace (i : Rec) : (s.updatePredictor i).trace = s.trace := rfl

/-! `setPhase` -/

@[simp] theorem State.setPhase_regs (p : Phase) : (s.setPhase p).regs = s.regs := rfl
@[simp] theorem State.setPhase_pc (p : Phase) : (s.setPhase p).pc = s.pc := rfl
@[simp] theorem State.setPhase_bufA (p : Phase) : (s.setPhase p).bufA = s.bufA := rfl
@[simp] theorem State.setPhase_bufB (p : Phase) : (s.setPhase p).bufB = s.bufB := rfl
@[simp] theorem State.setPhase_bufZ (p : Phase) : (s.setPhase p).bufZ = s.bufZ := rfl
@[simp] theorem State.setPhase_bufY (p : Phase) : (s.setPhase p).bufY = s.bufY := rfl
@[simp] theorem State.setPhase_bufM (p : Phase) : (s.setPhase p).bufM = s.bufM := rfl
@[simp] theorem State.setPhase_slotF (p : Phase) : (s.setPhase p).slotF = s.slotF := rfl
@[simp] theorem State.setPhase_slotD (p : Phase) : (s.setPhase p).slotD = s.slotD := rfl
@[simp] theorem State.setPhase_slotX (p : Phase) : (s.setPhase p).slotX = s.slotX := rfl
@[simp] theorem State.setPhase_slotW (p : Phase) : (s.setPhase p).slotW = s.slotW := rfl
@[simp] theorem State.setPhase_slotS (p : Phase) : (s.setPhase p).slotS = s.slotS := rfl
@[simp] theorem State.setPhase_win (p : Phase) : (s.setPhase p).win = s.win := rfl
@[simp] theorem State.setPhase_ftab (p : Phase) : (s.setPhase p).ftab = s.ftab := rfl
@[simp] theorem State.setPhase_bubble (p : Phase) : (s.setPhase p).bubble = s.bubble := rfl
@[simp] theorem State.setPhase_predBit (p : Phase) : (s.setPhase p).predBit = s.predBit := rfl
@[simp] theorem State.setPhase_phase (p : Phase) : (s.setPhase p).phase = p := rfl
@[simp] theorem State.setPhase_done (p : Phase) : (s.setPhase p).done = s.done := rfl
@[simp] theorem State.setPhase_fatal (p : Phase) : (s.setPhase p).fatal = s.fatal := rfl
@[simp] theorem State.setPhase_fatalCode (p : Phase) : (s.setPhase p).fatalCode = s.fatalCode := rfl
@[simp] theorem State.setPhase_fatalInfo (p : Phase) : (s.setPhase p).fatalInfo = s.fatalInfo := rfl
@[simp] theorem State.setPhase_errSeen (p : Phase) : (s.setPhase p).errSeen = s.errSeen := rfl
@[simp] theorem State.setPhase_errCode (p : Phase) : (s.setPhase p).errCode = s.errCode := rfl
@[simp] theorem State.setPhase_errInfo (p : Phase) : (s.setPhase p).errInfo = s.errInfo := rfl
@[simp] theorem State.setPhase_seqCtr (p : Phase) : (s.setPhase p).seqCtr = s.seqCtr := rfl
@[simp] theorem State.setPhase_params (p : Phase) : (s.setPhase p).params = s.params := rfl
@[simp] theorem State.setPhase_imem (p : Phase) : (s.setPhase p).imem = s.imem := rfl
@[simp] theorem State.setPhase_data (p : Phase) : (s.setPhase p).data = s.data := rfl
@[simp] theorem State.setPhase_stack (p : Phase) : (s.setPhase p).stack = s.stack := rfl
@[simp] theorem State.setPhase_trace (p : Phase) : (s.setPhase p).trace = s.trace := rfl

/-! `emptyF` -/

@[simp] theorem State.emptyF_regs : (s.emptyF).regs = s.regs := rfl
@[simp] theorem State.emptyF_pc : (s.emptyF).pc = s.pc := rfl
@[simp] theorem State.emptyF_bufA : (s.emptyF).bufA = s.bufA := rfl
@[simp] theorem State.emptyF_bufB : (s.emptyF).bufB = s.bufB := rfl
@[simp] theorem State.emptyF_bufZ : (s.emptyF).bufZ = s.bufZ := rfl
@[simp] theorem State.emptyF_bufY : (s.emptyF).bufY = s.bufY := rfl
@[simp] theorem State.emptyF_bufM : (s.emptyF).bufM = s.bufM := rfl
@[simp] theorem State.emptyF_slotF : (s.emptyF).slotF = none := rfl
@[simp] theorem State.emptyF_slotD : (s.emptyF).slotD = s.slotD := rfl
@[simp] theorem State.emptyF_slotX : (s.emptyF).slotX = s.slotX := rfl
@[simp] theorem State.emptyF_slotW : (s.emptyF).slotW = s.slotW := rfl
@[simp] theorem State.emptyF_slotS : (s.emptyF).slotS = s.slotS := rfl
@[simp] theorem State.emptyF_win : (s.emptyF).win = s.win := rfl
@[simp] theorem State.emptyF_ftab : (s.emptyF).ftab = s.ftab := rfl
@[simp] theorem State.emptyF_bubble : (s.emptyF).bubble = s.bubble := rfl
@[simp] theorem State.emptyF_predBit : (s.emptyF).predBit = s.predBit := rfl
@[simp] theorem State.emptyF_phase : (s.emptyF).phase = s.phase := rfl
@[simp] theorem State.emptyF_done : (s.emptyF).done = s.done := rfl
@[simp] theorem State.emptyF_fatal : (s.emptyF).fatal = s.fatal := rfl
@[simp] theorem State.emptyF_fatalCode : (s.emptyF).fatalCode = s.fatalCode := rfl
@[simp] theorem State.emptyF_fatalInfo : (s.emptyF).fatalInfo = s.fatalInfo := rfl
@[simp] theorem State.emptyF_errSeen : (s.emptyF).errSeen = s.errSeen := rfl
@[simp] theorem State.emptyF_errCode : (s.emptyF).errCode = s.errCode := rfl
@[simp] theorem State.emptyF_errInfo : (s.emptyF).errInfo = s.errInfo := rfl
@[simp] theorem State.emptyF_seqCtr : (s.emptyF).seqCtr = s.seqCtr := rfl
@[simp] theorem State.emptyF_params : (s.emptyF).params = s.params := rfl
@[simp] theorem State.emptyF_imem : (s.emptyF).imem = s.imem := rfl
@[simp] theorem State.emptyF_data : (s.emptyF).data = s.data := rfl
@[simp] theorem State.emptyF_stack : (s.emptyF).stack = s.stack := rfl
@[simp] theorem State.emptyF_trace : (s.emptyF).trace = s.trace := rfl

/-! `putD` -/

@[simp] theorem State.putD_regs (i : Rec) : (s.putD i).regs = s.regs := rfl
@[simp] theorem State.putD_pc (i : Rec) : (s.putD i).pc = s.pc := rfl
@[simp] theorem State.putD_bufA (i : Rec) : (s.putD i).bufA = s.bufA := rfl
@[simp] theorem State.putD_bufB (i : Rec) : (s.putD i).bufB = s.bufB := rfl
@[simp] theorem State.putD_bufZ (i : Rec) : (s.putD i).bufZ = s.bufZ := rfl
@[simp] theorem State.putD_bufY (i : Rec) : (s.putD i).bufY = s.bufY := rfl
@[simp] theorem State.putD_bufM (i : Rec) : (s.putD i).bufM = s.bufM := rfl
@[simp] theorem State.putD_slotF (i : Rec) : (s.putD i).slotF = s.slotF := rfl
@[simp] theorem State.putD_slotD (i : Rec) : (s.putD i).slotD = some i := rfl
@[simp] theorem State.putD_slotX (i : Rec) : (s.putD i).slotX = s.slotX := rfl
@[simp] theorem State.putD_slotW (i : Rec) : (s.putD i).slotW = s.slotW := rfl
@[simp] theorem State.putD_slotS (i : Rec) : (s.putD i).slotS = s.slotS := rfl
@[simp] theorem State.putD_win (i : Rec) : (s.putD i).win = s.win := rfl
@[simp] theorem State.putD_ftab (i : Rec) : (s.putD i).ftab = s.ftab := rfl
@[simp] theorem State.putD_bubble (i : Rec) : (s.putD i).bubble = s.bubble := rfl
@[simp] theorem State.putD_predBit (i : Rec) : (s.putD i).predBit = s.predBit := rfl
@[simp] theorem State.putD_phase (i : Rec) : (s.putD i).phase = s.phase := rfl
@[simp] theorem State.putD_done (i : Rec) : (s.putD i).done = s.done := rfl
@[simp] theorem State.putD_fatal (i : Rec) : (s.putD i).fatal = s.fatal := rfl
@[simp] theorem State.putD_fatalCode (i : Rec) : (s.putD i).fatalCode = s.fatalCode := rfl
@[simp] theorem State.putD_fatalInfo (i : Rec) : (s.putD i).fatalInfo = s.fatalInfo := rfl
@[simp] theorem State.putD_errSeen (i : Rec) : (s.putD i).errSeen = s.errSeen := rfl
@[simp] theorem State.putD_errCode (i : Rec) : (s.putD i).errCode = s.errCode := rfl
@[simp] theorem State.putD_errInfo (i : Rec) : (s.putD i).errInfo = s.errInfo := rfl
@[simp] theorem State.putD_seqCtr (i : Rec) : (s.putD i).seqCtr = s.seqCtr := rfl
@[simp] theorem State.putD_params (i : Rec) : (s.putD i).params = s.params := rfl
@[simp] theorem State.putD_imem (i : Rec) : (s.putD i).imem = s.imem := rfl
@[simp] theorem State.putD_data (i : Rec) : (s.putD i).data = s.data := rfl
@[simp] theorem State.putD_stack (i : Rec) : (s.putD i).stack = s.stack := rfl
@[simp] theorem State.putD_trace (i : Rec) : (s.putD i).trace = s.trace := rfl

/-! `moveToX` -/

@[simp] theorem State.moveToX_regs (i : Rec) : (s.moveToX i).regs = s.regs := rfl
@[simp] theorem State.moveToX_pc (i : Rec) : (s.moveToX i).pc = s.pc := rfl
@[simp] theorem State.moveToX_bufA (i : Rec) : (s.moveToX i).bufA = s.bufA := rfl
@[simp] theorem State.moveToX_bufB (i : Rec) : (s.moveToX i).bufB = s.bufB := rfl
@[simp] theorem State.moveToX_bufZ (i : Rec) : (s.moveToX i).bufZ = s.bufZ := rfl
@[simp] theorem State.moveToX_bufY (i : Rec) : (s.moveToX i).bufY = s.bufY := rfl
@[simp] theorem State.moveToX_bufM (i : Rec) : (s.moveToX i).bufM = s.bufM := rfl
@[simp] theorem State.moveToX_slotF (i : Rec) : (s.moveToX i).slotF = s.slotF := rfl
@[simp] theorem State.moveToX_slotD (i : Rec) : (s.moveToX i).slotD = none := rfl
@[simp] theorem State.moveToX_slotX (i : Rec) : (s.moveToX i).slotX = some i := rfl
@[simp] theorem State.moveToX_slotW (i : Rec) : (s.moveToX i).slotW = s.slotW := rfl
@[simp] theorem State.moveToX_slotS (i : Rec) : (s.moveToX i).slotS = s.slotS := rfl
@[simp] theorem State.moveToX_win (i : Rec) : (s.moveToX i).win = s.win := rfl
@[simp] theorem State.moveToX_ftab (i : Rec) : (s.moveToX i).ftab = s.ftab := rfl
@[simp] theorem State.moveToX_bubble (i : Rec) : (s.moveToX i).bubble = s.bubble := rfl
@[simp] theorem State.moveToX_predBit (i : Rec) : (s.moveToX i).predBit = s.predBit := rfl
@[simp] theorem State.moveToX_phase (i : Rec) : (s.moveToX i).phase = s.phase := rfl
@[simp] theorem State.moveToX_done (i : Rec) : (s.moveToX i).done = s.done := rfl
@[simp] theorem State.moveToX_fatal (i : Rec) : (s.moveToX i).fatal = s.fatal := rfl
@[simp] theorem State.moveToX_fatalCode (i : Rec) : (s.moveToX i).fatalCode = s.fatalCode := rfl
@[simp] theorem State.moveToX_fatalInfo (i : Rec) : (s.moveToX i).fatalInfo = s.fatalInfo := rfl
@[simp] theorem State.moveToX_errSeen (i : Rec) : (s.moveToX i).errSeen = s.errSeen := rfl
@[simp] theorem State.moveToX_errCode (i : Rec) : (s.moveToX i).errCode = s.errCode := rfl
@[simp] theorem State.moveToX_errInfo (i : Rec) : (s.moveToX i).errInfo = s.errInfo := rfl
@[simp] theorem State.moveToX_seqCtr (i : Rec) : (s.moveToX i).seqCtr = s.seqCtr := rfl
@[simp] theorem State.moveToX_params (i : Rec) : (s.moveToX i).params = s.params := rfl
@[simp] theorem State.moveToX_imem (i : Rec) : (s.moveToX i).imem = s.imem := rfl
@[simp] theorem State.moveToX_data (i : Rec) : (s.moveToX i).data = s.data := rfl
@[simp] theorem State.moveToX_stack (i : Rec) : (s.moveToX i).stack = s.stack := rfl
@[simp] theorem State.moveToX_trace (i : Rec) : (s.moveToX i).trace = s.trace := rfl

/-! `moveToW` -/

@[simp] theorem State.moveToW_regs (i : Rec) : (s.moveToW i).regs = s.regs := rfl
@[simp] theorem State.moveToW_pc (i : Rec) : (s.moveToW i).pc = s.pc := rfl
@[simp] theorem State.moveToW_bufA (i : Rec) : (s.moveToW i).bufA = s.bufA := rfl
@[simp] theorem State.moveToW_bufB (i : Rec) : (s.moveToW i).bufB = s.bufB := rfl
@[simp] theorem State.moveToW_bufZ (i : Rec) : (s.moveToW i).bufZ = s.bufZ := rfl
@[simp] theorem State.moveToW_bufY (i : Rec) : (s.moveToW i).bufY = s.bufY := rfl
@[simp] theorem State.moveToW_bufM (i : Rec) : (s.moveToW i).bufM = s.bufM := rfl
@[simp] theorem State.moveToW_slotF (i : Rec) : (s.moveToW i).slotF = s.slotF := rfl
@[simp] theorem State.moveToW_slotD (i : Rec) : (s.moveToW i).slotD = s.slotD := rfl
@[simp] theorem State.moveToW_slotX (i : Rec) : (s.moveToW i).slotX = none := rfl
@[simp] theorem State.moveToW_slotW (i : Rec) : (s.moveToW i).slotW = some i := rfl
@[simp] theorem State.moveToW_slotS (i : Rec) : (s.moveToW i).slotS = s.slotS := rfl
@[simp] theorem State.moveToW_win (i : Rec) : (s.moveToW i).win = s.win := rfl
@[simp] theorem State.moveToW_ftab (i : Rec) : (s.moveToW i).ftab = s.ftab := rfl
@[simp] theorem State.moveToW_bubble (i : Rec) : (s.moveToW i).bubble = s.bubble := rfl
@[simp] theorem State.moveToW_predBit (i : Rec) : (s.moveToW i).predBit = s.predBit := rfl
@[simp] theorem State.moveToW_phase (i : Rec) : (s.moveToW i).phase = s.phase := rfl
@[simp] theorem State.moveToW_done (i : Rec) : (s.moveToW i).done = s.done := rfl
@[simp] theorem State.moveToW_fatal (i : Rec) : (s.moveToW i).fatal = s.fatal := rfl
@[simp] theorem State.moveToW_fatalCode (i : Rec) : (s.moveToW i).fatalCode = s.fatalCode := rfl
@[simp] theorem State.moveToW_fatalInfo (i : Rec) : (s.moveToW i).fatalInfo = s.fatalInfo := rfl
@[simp] theorem State.moveToW_errSeen (i : Rec) : (s.moveToW i).errSeen = s.errSeen := rfl
@[simp] theorem State.moveToW_errCode (i : Rec) : (s.moveToW i).errCode = s.errCode := rfl
@[simp] theorem State.moveToW_errInfo (i : Rec) : (s.moveToW i).errInfo = s.errInfo := rfl
@[simp] theorem State.moveToW_seqCtr (i : Rec) : (s.moveToW i).seqCtr = s.seqCtr := rfl
@[simp] theorem State.moveToW_params (i : Rec) : (s.moveToW i).params = s.params := rfl
@[simp] theorem State.moveToW_imem (i : Rec) : (s.moveToW i).imem = s.imem := rfl
@[simp] theorem State.moveToW_data (i : Rec) : (s.moveToW i).data = s.data := rfl
@[simp] theorem State.moveToW_stack (i : Rec) : (s.moveToW i).stack = s.stack := rfl
@[simp] theorem State.moveToW_trace (i : Rec) : (s.moveToW i).trace = s.trace := rfl

/-! `emptyW` -/

@[simp] theorem State.emptyW_regs : (s.emptyW).regs = s.regs := rfl
@[simp] theorem State.emptyW_pc : (s.emptyW).pc = s.pc := rfl
@[simp] theorem State.emptyW_bufA : (s.emptyW).bufA = s.bufA := rfl
@[simp] theorem State.emptyW_bufB : (s.emptyW).bufB = s.bufB := rfl
@[simp] theorem State.emptyW_bufZ : (s.emptyW).bufZ = s.bufZ := rfl
@[simp] theorem State.emptyW_bufY : (s.emptyW).bufY = s.bufY := rfl
@[simp] theorem State.emptyW_bufM : (s.emptyW).bufM = s.bufM := rfl
@[simp] theorem State.emptyW_slotF : (s.emptyW).slotF = s.slotF := rfl
@[simp] theorem State.emptyW_slotD : (s.emptyW).slotD = s.slotD := rfl
@[simp] theorem State.emptyW_slotX : (s.emptyW).slotX = s.slotX := rfl
@[simp] theorem State.emptyW_slotW : (s.emptyW).slotW = none := rfl
@[simp] theorem State.emptyW_slotS : (s.emptyW).slotS = s.slotS := rfl
@[simp] theorem State.emptyW_win : (s.emptyW).win = s.win := rfl
@[simp] theorem State.emptyW_ftab : (s.emptyW).ftab = s.ftab := rfl
@[simp] theorem State.emptyW_bubble : (s.emptyW).bubble = s.bubble := rfl
@[simp] theorem State.emptyW_predBit : (s.emptyW).predBit = s.predBit := rfl
@[simp] theorem State.emptyW_phase : (s.emptyW).phase = s.phase := rfl
@[simp] theorem State.emptyW_done : (s.emptyW).done = s.done := rfl
@[simp] theorem State.emptyW_fatal : (s.emptyW).fatal = s.fatal := rfl
@[simp] theorem State.emptyW_fatalCode : (s.emptyW).fatalCode = s.fatalCode := rfl
@[simp] theorem State.emptyW_fatalInfo : (s.emptyW).fatalInfo = s.fatalInfo := rfl
@[simp] theorem State.emptyW_errSeen : (s.emptyW).errSeen = s.errSeen := rfl
@[simp] theorem State.emptyW_errCode : (s.emptyW).errCode = s.errCode := rfl
@[simp] theorem State.emptyW_errInfo : (s.emptyW).errInfo = s.errInfo := rfl
@[simp] theorem State.emptyW_seqCtr : (s.emptyW).seqCtr = s.seqCtr := rfl
@[simp] theorem State.emptyW_params : (s.emptyW).params = s.params := rfl
@[simp] theorem State.emptyW_imem : (s.emptyW).imem = s.imem := rfl
@[simp] theorem State.emptyW_data : (s.emptyW).data = s.data := rfl
@[simp] theorem State.emptyW_stack : (s.emptyW).stack = s.stack := rfl
@[simp] theorem State.emptyW_trace : (s.emptyW).trace = s.trace := rfl

/-! `idle` -/

@[simp] theorem State.idle_regs : (s.idle).regs = s.regs := rfl
@[simp] theorem State.idle_pc : (s.idle).pc = s.pc := rfl
@[simp] theorem State.idle_bufA : (s.idle).bufA = s.bufA := rfl
@[simp] theorem State.idle_bufB : (s.idle).bufB = s.bufB := rfl
@[simp] theorem State.idle_bufZ : (s.idle).bufZ = s.bufZ := rfl
@[simp] theorem State.idle_bufY : (s.idle).bufY = s.bufY := rfl
@[simp] theorem State.idle_bufM : (s.idle).bufM = s.bufM := rfl
@[simp] theorem State.idle_slotF : (s.idle).slotF = none := rfl
@[simp] theorem State.idle_slotD : (s.idle).slotD = none := rfl
@[simp] theorem State.idle_slotX : (s.idle).slotX = none := rfl
@[simp] theorem State.idle_slotW : (s.idle).slotW = none := rfl
@[simp] theorem State.idle_slotS : (s.idle).slotS = none := rfl
@[simp] theorem State.idle_win : (s.idle).win = Window.empty := rfl
@[simp] theorem State.idle_ftab : (s.idle).ftab = [] := rfl
@[simp] theorem State.idle_bubble : (s.idle).bubble = 0 := rfl
@[simp] theorem State.idle_predBit : (s.idle).predBit = s.predBit := rfl
@[simp] theorem State.idle_phase : (s.idle).phase = .fetch := rfl
@[simp] theorem State.idle_done : (s.idle).done = false := rfl
@[simp] theorem State.idle_fatal : (s.idle).fatal = false := rfl
@[simp] theorem State.idle_fatalCode : (s.idle).fatalCode = 0#8 := rfl
@[simp] theorem State.idle_fatalInfo : (s.idle).fatalInfo = 0#32 := rfl
@[simp] theorem State.idle_errSeen : (s.idle).errSeen = s.errSeen := rfl
@[simp] theorem State.idle_errCode : (s.idle).errCode = s.errCode := rfl
@[simp] theorem State.idle_errInfo : (s.idle).errInfo = s.errInfo := rfl
@[simp] theorem State.idle_seqCtr : (s.idle).seqCtr = s.seqCtr := rfl
@[simp] theorem State.idle_params : (s.idle).params = s.params := rfl
@[simp] theorem State.idle_imem : (s.idle).imem = s.imem := rfl
@[simp] theorem State.idle_data : (s.idle).data = s.data := rfl
@[simp] theorem State.idle_stack : (s.idle).stack = s.stack := rfl
@[simp] theorem State.idle_trace : (s.idle).trace = s.trace := rfl

/-! `withFetchWord` -/

@[simp] theorem State.withFetchWord_regs (n w : Nat) : (s.withFetchWord n w).regs = s.regs := rfl
@[simp] theorem State.withFetchWord_pc (n w : Nat) : (s.withFetchWord n w).pc = s.pc := rfl
@[simp] theorem State.withFetchWord_bufA (n w : Nat) : (s.withFetchWord n w).bufA = s.bufA := rfl
@[simp] theorem State.withFetchWord_bufB (n w : Nat) : (s.withFetchWord n w).bufB = s.bufB := rfl
@[simp] theorem State.withFetchWord_bufZ (n w : Nat) : (s.withFetchWord n w).bufZ = s.bufZ := rfl
@[simp] theorem State.withFetchWord_bufY (n w : Nat) : (s.withFetchWord n w).bufY = s.bufY := rfl
@[simp] theorem State.withFetchWord_bufM (n w : Nat) : (s.withFetchWord n w).bufM = s.bufM := rfl
@[simp] theorem State.withFetchWord_slotF (n w : Nat) : (s.withFetchWord n w).slotF = none := rfl
@[simp] theorem State.withFetchWord_slotD (n w : Nat) : (s.withFetchWord n w).slotD = none := rfl
@[simp] theorem State.withFetchWord_slotX (n w : Nat) : (s.withFetchWord n w).slotX = none := rfl
@[simp] theorem State.withFetchWord_slotW (n w : Nat) : (s.withFetchWord n w).slotW = none := rfl
@[simp] theorem State.withFetchWord_slotS (n w : Nat) : (s.withFetchWord n w).slotS = none := rfl
@[simp] theorem State.withFetchWord_win (n w : Nat) : (s.withFetchWord n w).win = Window.empty := rfl
@[simp] theorem State.withFetchWord_ftab (n w : Nat) : (s.withFetchWord n w).ftab = [] := rfl
@[simp] theorem State.withFetchWord_bubble (n w : Nat) : (s.withFetchWord n w).bubble = 0 := rfl
@[simp] theorem State.withFetchWord_predBit (n w : Nat) : (s.withFetchWord n w).predBit = s.predBit := rfl
@[simp] theorem State.withFetchWord_phase (n w : Nat) : (s.withFetchWord n w).phase = .fetch := rfl
@[simp] theorem State.withFetchWord_done (n w : Nat) : (s.withFetchWord n w).done = false := rfl
@[simp] theorem State.withFetchWord_fatal (n w : Nat) : (s.withFetchWord n w).fatal = false := rfl
@[simp] theorem State.withFetchWord_fatalCode (n w : Nat) : (s.withFetchWord n w).fatalCode = 0#8 := rfl
@[simp] theorem State.withFetchWord_fatalInfo (n w : Nat) : (s.withFetchWord n w).fatalInfo = 0#32 := rfl
@[simp] theorem State.withFetchWord_errSeen (n w : Nat) : (s.withFetchWord n w).errSeen = s.errSeen := rfl
@[simp] theorem State.withFetchWord_errCode (n w : Nat) : (s.withFetchWord n w).errCode = s.errCode := rfl
@[simp] theorem State.withFetchWord_errInfo (n w : Nat) : (s.withFetchWord n w).errInfo = s.errInfo := rfl
@[simp] theorem State.withFetchWord_seqCtr (n w : Nat) : (s.withFetchWord n w).seqCtr = s.seqCtr := rfl
@[simp] theorem State.withFetchWord_imem (n w : Nat) : (s.withFetchWord n w).imem = s.imem.insert s.pc.toNat (BitVec.ofNat 32 (w % 2 ^ n)) := rfl
@[simp] theorem State.withFetchWord_data (n w : Nat) : (s.withFetchWord n w).data = s.data := rfl
@[simp] theorem State.withFetchWord_stack (n w : Nat) : (s.withFetchWord n w).stack = s.stack := rfl
@[simp] theorem State.withFetchWord_trace (n w : Nat) : (s.withFetchWord n w).trace = s.trace := rfl

/-! `emptyS` -/

@[simp] theorem State.emptyS_regs : (s.emptyS).regs = s.regs := rfl
@[simp] theorem State.emptyS_pc : (s.emptyS).pc = s.pc := rfl
@[simp] theorem State.emptyS_bufA : (s.emptyS).bufA = s.bufA := rfl
@[simp] theorem State.emptyS_bufB : (s.emptyS).bufB = s.bufB := rfl
@[simp] theorem State.emptyS_bufZ : (s.emptyS).bufZ = s.bufZ := rfl
@[simp] theorem State.emptyS_bufY : (s.emptyS).bufY = s.bufY := rfl
@[simp] theorem State.emptyS_bufM : (s.emptyS).bufM = s.bufM := rfl
@[simp] theorem State.emptyS_slotF : (s.emptyS).slotF = s.slotF := rfl
@[simp] theorem State.emptyS_slotD : (s.emptyS).slotD = s.slotD := rfl
@[simp] theorem State.emptyS_slotX : (s.emptyS).slotX = s.slotX := rfl
@[simp] theorem State.emptyS_slotW : (s.emptyS).slotW = s.slotW := rfl
@[simp] theorem State.emptyS_slotS : (s.emptyS).slotS = none := rfl
@[simp] theorem State.emptyS_win : (s.emptyS).win = s.win := rfl
@[simp] theorem State.emptyS_ftab : (s.emptyS).ftab = s.ftab := rfl
@[simp] theorem State.emptyS_bubble : (s.emptyS).bubble = s.bubble := rfl
@[simp] theorem State.emptyS_predBit : (s.emptyS).predBit = s.predBit := rfl
@[simp] theorem State.emptyS_phase : (s.emptyS).phase = s.phase := rfl
@[simp] theorem State.emptyS_done : (s.emptyS).done = s.done := rfl
@[simp] theorem State.emptyS_fatal : (s.emptyS).fatal = s.fatal := rfl
@[simp] theorem State.emptyS_fatalCode : (s.emptyS).fatalCode = s.fatalCode := rfl
@[simp] theorem State.emptyS_fatalInfo : (s.emptyS).fatalInfo = s.fatalInfo := rfl
@[simp] theorem State.emptyS_errSeen : (s.emptyS).errSeen = s.errSeen := rfl
@[simp] theorem State.emptyS_errCode : (s.emptyS).errCode = s.errCode := rfl
@[simp] theorem State.emptyS_errInfo : (s.emptyS).errInfo = s.errInfo := rfl
@[simp] theorem State.emptyS_seqCtr : (s.emptyS).seqCtr = s.seqCtr := rfl
@[simp] theorem State.emptyS_params : (s.emptyS).params = s.params := rfl
@[simp] theorem State.emptyS_imem : (s.emptyS).imem = s.imem := rfl
@[simp] theorem State.emptyS_data : (s.emptyS).data = s.data := rfl
@[simp] theorem State.emptyS_stack : (s.emptyS).stack = s.stack := rfl
@[simp] theorem State.emptyS_trace : (s.emptyS).trace = s.trace := rfl

/-! `setSpace` -/

@[simp] theorem State.setSpace_regs (r : Region) (m : Memory) : (s.setSpace r m).regs = s.regs := by
  cases r <;> rfl
@[simp] theorem State.setSpace_pc (r : Region) (m : Memory) : (s.setSpace r m).pc = s.pc := by
  cases r <;> rfl
@[simp] theorem State.setSpace_bufA (r : Region) (m : Memory) : (s.setSpace r m).bufA = s.bufA := by
  cases r <;> rfl
@[simp] theorem State.setSpace_bufB (r : Region) (m : Memory) : (s.setSpace r m).bufB = s.bufB := by
  cases r <;> rfl
@[simp] theorem State.setSpace_bufZ (r : Region) (m : Memory) : (s.setSpace r m).bufZ = s.bufZ := by
  cases r <;> rfl
@[simp] theorem State.setSpace_bufY (r : Region) (m : Memory) : (s.setSpace r m).bufY = s.bufY := by
  cases r <;> rfl
@[simp] theorem State.setSpace_bufM (r : Region) (m : Memory) : (s.setSpace r m).bufM = s.bufM := by
  cases r <;> rfl
@[simp] theorem State.setSpace_slotF (r : Region) (m : Memory) : (s.setSpace r m).slotF = s.slotF := by
  cases r <;> rfl
@[simp] theorem State.setSpace_slotD (r : Region) (m : Memory) : (s.setSpace r m).slotD = s.slotD := by
  cases r <;> rfl
@[simp] theorem State.setSpace_slotX (r : Region) (m : Memory) : (s.setSpace r m).slotX = s.slotX := by
  cases r <;> rfl
@[simp] theorem State.setSpace_slotW (r : Region) (m : Memory) : (s.setSpace r m).slotW = s.slotW := by
  cases r <;> rfl
@[simp] theorem State.setSpace_slotS (r : Region) (m : Memory) : (s.setSpace r m).slotS = s.slotS := by
  cases r <;> rfl
@[simp] theorem State.setSpace_win (r : Region) (m : Memory) : (s.setSpace r m).win = s.win := by
  cases r <;> rfl
@[simp] theorem State.setSpace_ftab (r : Region) (m : Memory) : (s.setSpace r m).ftab = s.ftab := by
  cases r <;> rfl
@[simp] theorem State.setSpace_bubble (r : Region) (m : Memory) : (s.setSpace r m).bubble = s.bubble := by
  cases r <;> rfl
@[simp] theorem State.setSpace_predBit (r : Region) (m : Memory) : (s.setSpace r m).predBit = s.predBit := by
  cases r <;> rfl
@[simp] theorem State.setSpace_phase (r : Region) (m : Memory) : (s.setSpace r m).phase = s.phase := by
  cases r <;> rfl
@[simp] theorem State.setSpace_done (r : Region) (m : Memory) : (s.setSpace r m).done = s.done := by
  cases r <;> rfl
@[simp] theorem State.setSpace_fatal (r : Region) (m : Memory) : (s.setSpace r m).fatal = s.fatal := by
  cases r <;> rfl
@[simp] theorem State.setSpace_fatalCode (r : Region) (m : Memory) : (s.setSpace r m).fatalCode = s.fatalCode := by
  cases r <;> rfl
@[simp] theorem State.setSpace_fatalInfo (r : Region) (m : Memory) : (s.setSpace r m).fatalInfo = s.fatalInfo := by
  cases r <;> rfl
@[simp] theorem State.setSpace_errSeen (r : Region) (m : Memory) : (s.setSpace r m).errSeen = s.errSeen := by
  cases r <;> rfl
@[simp] theorem State.setSpace_errCode (r : Region) (m : Memory) : (s.setSpace r m).errCode = s.errCode := by
  cases r <;> rfl
@[simp] theorem State.setSpace_errInfo (r : Region) (m : Memory) : (s.setSpace r m).errInfo = s.errInfo := by
  cases r <;> rfl
@[simp] theorem State.setSpace_seqCtr (r : Region) (m : Memory) : (s.setSpace r m).seqCtr = s.seqCtr := by
  cases r <;> rfl
@[simp] theorem State.setSpace_params (r : Region) (m : Memory) : (s.setSpace r m).params = s.params := by
  cases r <;> rfl
@[simp] theorem State.setSpace_imem (r : Region) (m : Memory) : (s.setSpace r m).imem = s.imem := by
  cases r <;> rfl
@[simp] theorem State.setSpace_trace (r : Region) (m : Memory) : (s.setSpace r m).trace = s.trace := by
  cases r <;> rfl
@[simp] theorem State.setSpace_space_same (r : Region) (m : Memory) : (s.setSpace r m).space r = m := by
  cases r <;> rfl
theorem State.setSpace_space_ne (r q : Region) (m : Memory) (h : q ≠ r) :
    (s.setSpace r m).space q = s.space q := by
  cases r <;> cases q <;> first | rfl | exact absurd rfl h

end Sys2Proof.Machine
end

