-- ==== Sys2Proof/Laws/Memory.lean ====
section
/-! SUPPORT. The memory laws: read after write, canonical form kept by every memory operation, equal
reads mean equal listings, and what `memRead` and `memWrite` can do (R61, R63 to R69). -/

namespace Sys2Proof.Machine

/-! ## One byte -/

theorem Memory.read_write_same (m : Memory) (a : Nat) (b : Byte)
    (h : m.Pairwise fun x y => x.1 < y.1) : Memory.read (Memory.write m a b) a = b := by
  induction m with
  | nil => by_cases hb : b = Config.memDefaultByte <;> simp [Memory.write, Memory.read, hb]
  | cons c rest ih =>
    obtain ⟨k, v⟩ := c
    have hr := (List.pairwise_cons.mp h)
    have fresh : ∀ l : Memory, (∀ c ∈ l, a < c.1) → Memory.read l a = Config.memDefaultByte := by
      intro l hl
      induction l with
      | nil => rfl
      | cons d l ihl =>
        have := hl d (by simp)
        simp [Memory.read, show a ≠ d.1 by omega, ihl fun c hc => hl c (by simp [hc])]
    rcases Nat.lt_trichotomy a k with h1 | h1 | h1
    · by_cases hb : b = Config.memDefaultByte
      · have := fresh ((k, v) :: rest) (by
          intro c hc
          rcases List.mem_cons.mp hc with rfl | hc
          · exact h1
          · exact Nat.lt_trans h1 (hr.1 c hc))
        simp [Memory.write, h1, hb, this]
      · simp [Memory.write, Memory.read, h1, hb]
    · subst h1
      by_cases hb : b = Config.memDefaultByte
      · have := fresh rest (fun c hc => hr.1 c hc)
        simp [Memory.write, hb, this]
      · simp [Memory.write, Memory.read, hb]
    · simp [Memory.write, Memory.read, show ¬ a < k by omega, show a ≠ k by omega, ih hr.2]

theorem Memory.read_write_ne (m : Memory) (a a' : Nat) (b : Byte) (hne : a' ≠ a)
    (h : m.Pairwise fun x y => x.1 < y.1) :
    Memory.read (Memory.write m a b) a' = Memory.read m a' := by
  induction m with
  | nil => by_cases hb : b = Config.memDefaultByte <;> simp [Memory.write, Memory.read, hb, hne]
  | cons c rest ih =>
    obtain ⟨k, v⟩ := c
    have hr := (List.pairwise_cons.mp h)
    rcases Nat.lt_trichotomy a k with h1 | h1 | h1
    · by_cases hb : b = Config.memDefaultByte <;> simp [Memory.write, Memory.read, h1, hb, hne]
    · subst h1
      by_cases hb : b = Config.memDefaultByte <;> simp [Memory.write, Memory.read, hb, hne]
    · simp [Memory.write, Memory.read, show ¬ a < k by omega, show a ≠ k by omega, ih hr.2]

/-! ## The canonical form -/

theorem Memory.wf_iff (m : Memory) : Memory.wf m = true ↔
    m.Pairwise (fun x y => x.1 < y.1) ∧ ∀ c ∈ m, c.2 ≠ Config.memDefaultByte := by
  simp [Memory.wf, Bool.and_eq_true, List.all_eq_true]

theorem Memory.wf_sorted {m : Memory} (h : Memory.wf m = true) :
    m.Pairwise fun x y => x.1 < y.1 := ((Memory.wf_iff m).mp h).1

theorem Memory.write_mem (m : Memory) (a : Nat) (b : Byte) (c : Host.Cell)
    (h : c ∈ Memory.write m a b) : c ∈ m ∨ (c = (a, b) ∧ b ≠ Config.memDefaultByte) := by
  induction m with
  | nil =>
    by_cases hb : b = Config.memDefaultByte <;> simp [Memory.write, hb] at h
    exact .inr ⟨h, hb⟩
  | cons d rest ih =>
    obtain ⟨k, v⟩ := d
    simp only [Memory.write] at h
    split at h
    · split at h
      · exact .inl h
      · next hb =>
        rcases List.mem_cons.mp h with h | h
        · exact .inr ⟨h, hb⟩
        · exact .inl h
    · split at h
      · split at h
        · exact .inl (List.mem_cons_of_mem _ h)
        · next hb =>
          rcases List.mem_cons.mp h with h | h
          · exact .inr ⟨h, hb⟩
          · exact .inl (List.mem_cons_of_mem _ h)
      · rcases List.mem_cons.mp h with h | h
        · exact .inl (by simp [h])
        · rcases ih h with h | h
          · exact .inl (List.mem_cons_of_mem _ h)
          · exact .inr h

/-- Every write keeps the canonical form. -/
theorem Memory.write_wf (m : Memory) (a : Nat) (b : Byte) (h : Memory.wf m = true) :
    Memory.wf (Memory.write m a b) = true := by
  rw [Memory.wf_iff] at h ⊢
  refine ⟨?_, fun c hc => ?_⟩
  · have hs := h.1
    clear h
    induction m with
    | nil => by_cases hb : b = Config.memDefaultByte <;> simp [Memory.write, hb]
    | cons d rest ih =>
      obtain ⟨k, v⟩ := d
      have hr := List.pairwise_cons.mp hs
      simp only [Memory.write]
      split
      · next h1 =>
        split
        · exact hs
        · refine List.pairwise_cons.mpr ⟨fun c hc => ?_, hs⟩
          rcases List.mem_cons.mp hc with rfl | hc
          · exact h1
          · exact Nat.lt_trans h1 (hr.1 c hc)
      · split
        · next h1 h2 =>
          subst h2
          split
          · exact hr.2
          · exact List.pairwise_cons.mpr ⟨hr.1, hr.2⟩
        · next h1 h2 =>
          refine List.pairwise_cons.mpr ⟨fun c hc => ?_, ih hr.2⟩
          rcases Memory.write_mem rest a b c hc with hc | ⟨rfl, -⟩
          · exact hr.1 c hc
          · show k < a
            omega
  · rcases Memory.write_mem m a b c hc with hc | ⟨rfl, hb⟩
    · exact h.2 c hc
    · exact hb

theorem Memory.writeBytes_wf (m : Memory) (a : Nat) (bs : List Byte) (h : Memory.wf m = true) :
    Memory.wf (Memory.writeBytes m a bs) = true := by
  induction bs generalizing m a with
  | nil => exact h
  | cons b rest ih => exact ih _ _ (Memory.write_wf m a b h)

theorem Memory.ofCells_wf (cs : List Host.Cell) : Memory.wf (Memory.ofCells cs) = true := by
  induction cs with
  | nil => rfl
  | cons c rest ih => exact Memory.write_wf _ _ _ ih

/-- In canonical form, memories that read the same are the same listing. -/
theorem Memory.ext_of_read (m n : Memory) (hm : Memory.wf m = true) (hn : Memory.wf n = true)
    (h : ∀ a, Memory.read m a = Memory.read n a) : m = n := by
  rw [Memory.wf_iff] at hm hn
  have below : ∀ l : Memory, ∀ a, (∀ c ∈ l, a < c.1) → Memory.read l a = Config.memDefaultByte := by
    intro l a hl
    induction l with
    | nil => rfl
    | cons d l ih =>
      have := hl d (by simp)
      simp [Memory.read, show a ≠ d.1 by omega, ih fun c hc => hl c (by simp [hc])]
  induction m generalizing n with
  | nil =>
    cases n with
    | nil => rfl
    | cons d n =>
      have := h d.1
      simp [Memory.read] at this
      exact absurd this.symm (hn.2 d (by simp))
  | cons c m ih =>
    cases n with
    | nil =>
      have := h c.1
      simp [Memory.read] at this
      exact absurd this (hm.2 c (by simp))
    | cons d n =>
      have hc := List.pairwise_cons.mp hm.1
      have hd := List.pairwise_cons.mp hn.1
      have hk : c.1 = d.1 := by
        rcases Nat.lt_trichotomy c.1 d.1 with h1 | h1 | h1
        · have e := h c.1
          rw [below (d :: n) c.1 (by
            intro x hx
            rcases List.mem_cons.mp hx with rfl | hx
            · exact h1
            · exact Nat.lt_trans h1 (hd.1 x hx))] at e
          simp [Memory.read] at e
          exact absurd e (hm.2 c (by simp))
        · exact h1
        · have e := h d.1
          rw [below (c :: m) d.1 (by
            intro x hx
            rcases List.mem_cons.mp hx with rfl | hx
            · exact h1
            · exact Nat.lt_trans h1 (hc.1 x hx))] at e
          simp [Memory.read] at e
          exact absurd e.symm (hn.2 d (by simp))
      have hv : c.2 = d.2 := by
        have e := h c.1
        simpa [Memory.read, hk] using e
      have hcd : c = d := Prod.ext hk hv
      subst hcd
      congr 1
      refine ih n ⟨hc.2, fun x hx => hm.2 x (by simp [hx])⟩
        ⟨hd.2, fun x hx => hn.2 x (by simp [hx])⟩ fun a => ?_
      have e := h a
      by_cases ha : a = c.1
      · subst ha
        rw [below m c.1 hc.1, below n c.1 hd.1]
      · simpa [Memory.read, ha] using e

/-! ## Several bytes -/

theorem Memory.read_writeBytes_outside (m : Memory) (a x : Nat) (bs : List Byte)
    (h : Memory.wf m = true) (hx : x < a ∨ a + bs.length ≤ x) :
    Memory.read (Memory.writeBytes m a bs) x = Memory.read m x := by
  induction bs generalizing m a with
  | nil => rfl
  | cons b rest ih =>
    simp only [List.length_cons] at hx
    rw [Memory.writeBytes, ih _ _ (Memory.write_wf m a b h) (by omega),
      Memory.read_write_ne m a x b (by omega) (Memory.wf_sorted h)]

theorem Memory.read_writeBytes_inside (m : Memory) (a i : Nat) (bs : List Byte)
    (h : Memory.wf m = true) (hi : i < bs.length) :
    Memory.read (Memory.writeBytes m a bs) (a + i) = bs[i] := by
  induction bs generalizing m a i with
  | nil => simp at hi
  | cons b rest ih =>
    cases i with
    | zero =>
      rw [Memory.writeBytes, Memory.read_writeBytes_outside _ _ _ _ (Memory.write_wf m a b h)
        (by omega)]
      exact Memory.read_write_same m a b (Memory.wf_sorted h)
    | succ k =>
      rw [Memory.writeBytes, show a + (k + 1) = a + 1 + k by omega,
        ih _ _ k (Memory.write_wf m a b h) (by simpa using hi)]
      rfl

@[simp] theorem leBytes_length (n : Nat) (v : BitVec w) : (leBytes n v).length = n := by
  simp [leBytes]

@[simp] theorem leBytes_get (n i : Nat) (v : BitVec w) (h : i < (leBytes n v).length) :
    (leBytes n v)[i] = v.extractLsb' (8 * i) 8 := by
  simp [leBytes]

/-! ## Instruction space -/

theorem IMem.lookup_insert_same (m : IMem) (a : Nat) (w : Word) :
    IMem.lookup (IMem.insert m a w) a = some w := by
  induction m with
  | nil => simp [IMem.insert, IMem.lookup]
  | cons c rest ih =>
    obtain ⟨k, v⟩ := c
    simp only [IMem.insert]
    split
    · simp [IMem.lookup]
    · split
      · simp [IMem.lookup]
      · next h2 => simp [IMem.lookup, h2, ih]

theorem IMem.lookup_insert_ne (m : IMem) (a x : Nat) (w : Word) (h : x ≠ a) :
    IMem.lookup (IMem.insert m a w) x = IMem.lookup m x := by
  induction m with
  | nil => simp [IMem.insert, IMem.lookup, h]
  | cons c rest ih =>
    obtain ⟨k, v⟩ := c
    simp only [IMem.insert]
    split
    · simp [IMem.lookup, h]
    · split
      · next h2 => subst h2; simp [IMem.lookup, h]
      · simp [IMem.lookup, ih]

/-- The word placed is the one fetched at pc (R61, R62). -/
theorem State.withFetchWord_ifetch (s : State) (n w : Nat) :
    (s.withFetchWord n w).ifetch s.pc = some (BitVec.ofNat 32 (w % 2 ^ n)) := by
  have h4 : s.pc ≠ s.pc + 4#32 := by
    intro h
    have := congrArg BitVec.toNat h
    simp at this
    omega
  have ht : s.pc ≠ (s.withFetchWord n w).params.termAddr := by
    simp only [State.withFetchWord]
    split
    · exact h4
    · next h => exact fun e => h e.symm
  simp only [State.ifetch, ht, if_false, State.withFetchWord_imem, IMem.lookup_insert_same]

/-! ## Routing and access -/

/-- What the range check can answer (R64, R65). -/
theorem Params.accessRegion_cases (p : Params) (a : Word) (n : Nat) :
    (Params.accessRegion p a n = some .data ∧ p.dataLo.toNat ≤ a.toNat ∧ a.toNat ≤ p.dataHi.toNat ∧
      a.toNat + n - 1 ≤ p.dataHi.toNat) ∨
    (Params.accessRegion p a n = some .stack ∧
      ¬(p.dataLo.toNat ≤ a.toNat ∧ a.toNat ≤ p.dataHi.toNat) ∧
      p.stackLo.toNat ≤ a.toNat ∧ a.toNat ≤ p.stackHi.toNat ∧
      a.toNat + n - 1 ≤ p.stackHi.toNat) ∨
    Params.accessRegion p a n = none := by
  unfold Params.accessRegion Params.region
  split
  · exact .inr (.inr rfl)
  · next r hr =>
    split at hr
    · next h1 =>
      cases hr
      by_cases h2 : a.toNat + n - 1 ≤ Params.lastAddr p .data
      · rw [if_pos h2]; exact .inl ⟨rfl, h1.1, h1.2, h2⟩
      · rw [if_neg h2]; exact .inr (.inr rfl)
    · next h1 =>
      split at hr
      · next h3 =>
        cases hr
        by_cases h2 : a.toNat + n - 1 ≤ Params.lastAddr p .stack
        · rw [if_pos h2]; exact .inr (.inl ⟨rfl, h1, h3.1, h3.2, h2⟩)
        · rw [if_neg h2]; exact .inr (.inr rfl)
      · cases hr

/-- What `MemRead` can answer (R66). -/
theorem State.memRead_cases (s : State) (a : Word) (n : Nat) :
    (Params.accessRegion s.params a n = none ∧ s.memRead a n = none) ∨
    ∃ g, Params.accessRegion s.params a n = some g ∧
      s.memRead a n =
        some (BitVec.ofNat (8 * n) (leValue (Memory.readBytes (s.space g) a.toNat n))) := by
  unfold State.memRead
  split
  · next h => exact .inl ⟨h, rfl⟩
  · next g h => exact .inr ⟨g, h, rfl⟩

/-- What `MemWrite` can do: nothing, or one region's n bytes (R67). -/
theorem State.memWrite_cases (s : State) (a : Word) (n : Nat) (v : BitVec (8 * n)) :
    (Params.accessRegion s.params a n = none ∧ s.memWrite a n v = none) ∨
    ∃ g, Params.accessRegion s.params a n = some g ∧
      s.memWrite a n v =
        some (s.setSpace g (Memory.writeBytes (s.space g) a.toNat (leBytes n v))) := by
  unfold State.memWrite
  split
  · next h => exact .inl ⟨h, rfl⟩
  · next g h => exact .inr ⟨g, h, rfl⟩

end Sys2Proof.Machine
end

