-- ==== Sys2Proof/Laws/Registers.lean ====
section
/-! SUPPORT. The register laws: x0, read after write, and writeback (R20, R21, R203). -/

namespace Sys2Proof.Machine

@[simp] theorem State.readReg_zero (s : State) : s.readReg 0#5 = 0#32 := rfl

theorem State.readReg_congr {s t : State} (h : s.regs = t.regs) (r : Reg) :
    s.readReg r = t.readReg r := by
  simp [State.readReg, h]

theorem State.readReg_writeReg (s : State) (r q : Reg) (v : Word) :
    (s.writeReg r v).readReg q = if q = r ∧ r ≠ 0#5 then v else s.readReg q := by
  by_cases hq : q = 0#5
  · subst hq
    by_cases hr : r = 0#5
    · simp [hr]
    · simp [Ne.symm hr]
  · by_cases hr : r = 0#5
    · subst hr
      simp [State.readReg, State.writeReg, hq]
    · by_cases he : q = r
      · subst he
        simp [State.readReg, State.writeReg, hr]
      · have hn : r.toNat ≠ q.toNat := fun h => he (BitVec.eq_of_toNat_eq h.symm)
        simp [State.readReg, State.writeReg, hq, hr, he, hn]

@[simp] theorem State.writeReg_zero (s : State) (v : Word) : s.writeReg 0#5 v = s := rfl

/-- The stored slot 0 is never written (R21). -/
theorem State.writeReg_slot0 (s : State) (r : Reg) (v : Word) :
    (s.writeReg r v).regs[0] = s.regs[0] := by
  by_cases hr : r = 0#5
  · simp [State.writeReg, hr]
  · have : r.toNat ≠ 0 := fun h => hr (BitVec.eq_of_toNat_eq h)
    simp [State.writeReg, hr, this]

/-- Writeback writes at most one register, by `effDest` (R203, R209). -/
theorem writeback_eq (i : Rec) (s : State) :
    writeback i s = match i.instr.effDest with
      | none => s
      | some r => s.writeReg r s.bufY := by
  unfold writeback Instr.effDest
  cases h : i.instr.rd with
  | none => rfl
  | some r =>
    by_cases hr : r = 0#5
    · subst hr; rfl
    · simp [hr]

end Sys2Proof.Machine
end

