-- ==== Sys2Proof/Laws/Stages.lean ====
section
/-! SUPPORT. What each stage procedure and each helper of the step can change, said once (R201, R207 to R218). -/

namespace Sys2Proof.Machine

/-- The execute stage changes of the record only `taken`, and of the state only Z, M, the error registers
and the trace (R201). -/
theorem executeStage_shape (r : Rec) (s : State) : ∃ tk z m seen code info tr,
    executeStage r s = ({ r with taken := tk }, { s with
      bufZ := z, bufM := m, errSeen := seen, errCode := code, errInfo := info, trace := tr }) := by
  obtain ⟨i, a, q, p, tk⟩ := r
  cases i
  case div => by_cases h : s.bufB = 0#32 <;>
    simp [executeStage, executeDiv, executeDivide, h, State.log, State.setZ]
  case rem => by_cases h : s.bufB = 0#32 <;>
    simp [executeStage, executeRem, executeDivide, h, State.log, State.setZ]
  all_goals exact ⟨_, _, _, _, _, _, _, rfl⟩

/-- A store's memory stage changes Y, one space, the error registers and the trace (R155). -/
theorem memoryStore_shape (n : Nat) (val : Word → BitVec (8 * n)) (s : State) :
    ∃ y d k seen code info tr, memoryStore n val s = { s with
      bufY := y, data := d, stack := k, errSeen := seen, errCode := code, errInfo := info,
      trace := tr } := by
  obtain ⟨_, h⟩ | ⟨g, _, h⟩ := State.memWrite_cases s s.bufZ n (val s.bufM)
  · simp [memoryStore, h, State.log, State.setY]
  · cases g <;> simp [memoryStore, h, State.setSpace, State.setY]

/-- A load's memory stage changes Y, the error registers and the trace (R150). -/
theorem memoryLoad_shape (n : Nat) (ext : BitVec (8 * n) → Word) (s : State) :
    ∃ y seen code info tr, memoryLoad n ext s = { s with
      bufY := y, errSeen := seen, errCode := code, errInfo := info, trace := tr } := by
  obtain ⟨_, h⟩ | ⟨g, _, h⟩ := State.memRead_cases s s.bufZ n
  · simp [memoryLoad, h, State.log, State.setY]
  · simp [memoryLoad, h, State.setY]

/-- The memory stage changes only Y, the two byte spaces, the error registers and the trace (R201). -/
theorem memoryStage_shape (r : Rec) (s : State) : ∃ y d k seen code info tr,
    memoryStage r s = { s with
      bufY := y, data := d, stack := k, errSeen := seen, errCode := code, errInfo := info,
      trace := tr } := by
  obtain ⟨i, a, q, p, tk⟩ := r
  cases i
  case sb | sh | sw | sd => exact memoryStore_shape _ _ _
  case lb | lh | lw | ld =>
    obtain ⟨y, a, b, c, d, h⟩ := memoryLoad_shape _ _ s
    exact ⟨y, s.data, s.stack, a, b, c, d, h⟩
  all_goals exact ⟨s.bufZ, s.data, s.stack, s.errSeen, s.errCode, s.errInfo, s.trace, rfl⟩

/-- Control resolution changes only pc, F, the sticky bit and the trace (R207). -/
theorem resolveControl_shape (i : Rec) (s : State) : ∃ p f b tr,
    (resolveControl i s).1 = { s with pc := p, slotF := f, predBit := b, trace := tr } := by
  unfold resolveControl
  split
  · exact ⟨_, _, _, _, rfl⟩
  · split
    · exact ⟨_, _, _, _, rfl⟩
    · exact ⟨s.pc, s.slotF, s.predBit, s.trace, rfl⟩

/-- A forwarding entry changes A or B and the trace (R259). -/
theorem applyEntry_shape (s : State) (e : FwdEntry) : ∃ a b tr,
    applyEntry s e = { s with bufA := a, bufB := b, trace := tr } := by
  unfold applyEntry
  split
  · exact ⟨_, s.bufB, _, rfl⟩
  · exact ⟨s.bufA, _, _, rfl⟩

theorem applyEntries_shape (es : List FwdEntry) (s : State) : ∃ a b tr,
    es.foldl applyEntry s = { s with bufA := a, bufB := b, trace := tr } := by
  induction es generalizing s with
  | nil => exact ⟨s.bufA, s.bufB, s.trace, rfl⟩
  | cons e rest ih =>
    obtain ⟨a, b, tr, h⟩ := applyEntry_shape s e
    obtain ⟨a', b', tr', h'⟩ := ih (applyEntry s e)
    exact ⟨a', b', tr', by rw [List.foldl_cons, h', h]⟩

/-- Sub-step 7 changes A, B and the trace, and empties the table (R217, R259). -/
theorem applyForwards_shape (s : State) : ∃ a b tr,
    applyForwards s = { s with bufA := a, bufB := b, trace := tr, ftab := [] } := by
  obtain ⟨a, b, tr, h⟩ := applyEntries_shape s.ftab s
  exact ⟨a, b, tr, by rw [applyForwards, h]⟩

/-- Sub-step 7 only adds events. -/
theorem applyForwards_trace (s : State) (e : Event) (h : e ∈ s.trace) : e ∈ (applyForwards s).trace := by
  have key : ∀ (es : List FwdEntry) (s : State), e ∈ s.trace → e ∈ (es.foldl applyEntry s).trace := by
    intro es
    induction es with
    | nil => exact fun _ h => h
    | cons x rest ih =>
      intro s h
      refine ih _ ?_
      unfold applyEntry
      split <;> exact List.mem_append_left _ h
  exact key _ _ h


/-! `executeStage`: the fields it leaves alone -/

@[simp] theorem executeStage_regs (r : Rec) (s : State) : (executeStage r s).2.regs = s.regs := by
  obtain ⟨_, _, _, _, _, _, _, h⟩ := executeStage_shape r s; rw [h]
@[simp] theorem executeStage_pc (r : Rec) (s : State) : (executeStage r s).2.pc = s.pc := by
  obtain ⟨_, _, _, _, _, _, _, h⟩ := executeStage_shape r s; rw [h]
@[simp] theorem executeStage_bufA (r : Rec) (s : State) : (executeStage r s).2.bufA = s.bufA := by
  obtain ⟨_, _, _, _, _, _, _, h⟩ := executeStage_shape r s; rw [h]
@[simp] theorem executeStage_bufB (r : Rec) (s : State) : (executeStage r s).2.bufB = s.bufB := by
  obtain ⟨_, _, _, _, _, _, _, h⟩ := executeStage_shape r s; rw [h]
@[simp] theorem executeStage_bufY (r : Rec) (s : State) : (executeStage r s).2.bufY = s.bufY := by
  obtain ⟨_, _, _, _, _, _, _, h⟩ := executeStage_shape r s; rw [h]
@[simp] theorem executeStage_slotF (r : Rec) (s : State) : (executeStage r s).2.slotF = s.slotF := by
  obtain ⟨_, _, _, _, _, _, _, h⟩ := executeStage_shape r s; rw [h]
@[simp] theorem executeStage_slotD (r : Rec) (s : State) : (executeStage r s).2.slotD = s.slotD := by
  obtain ⟨_, _, _, _, _, _, _, h⟩ := executeStage_shape r s; rw [h]
@[simp] theorem executeStage_slotX (r : Rec) (s : State) : (executeStage r s).2.slotX = s.slotX := by
  obtain ⟨_, _, _, _, _, _, _, h⟩ := executeStage_shape r s; rw [h]
@[simp] theorem executeStage_slotW (r : Rec) (s : State) : (executeStage r s).2.slotW = s.slotW := by
  obtain ⟨_, _, _, _, _, _, _, h⟩ := executeStage_shape r s; rw [h]
@[simp] theorem executeStage_slotS (r : Rec) (s : State) : (executeStage r s).2.slotS = s.slotS := by
  obtain ⟨_, _, _, _, _, _, _, h⟩ := executeStage_shape r s; rw [h]
@[simp] theorem executeStage_win (r : Rec) (s : State) : (executeStage r s).2.win = s.win := by
  obtain ⟨_, _, _, _, _, _, _, h⟩ := executeStage_shape r s; rw [h]
@[simp] theorem executeStage_ftab (r : Rec) (s : State) : (executeStage r s).2.ftab = s.ftab := by
  obtain ⟨_, _, _, _, _, _, _, h⟩ := executeStage_shape r s; rw [h]
@[simp] theorem executeStage_bubble (r : Rec) (s : State) : (executeStage r s).2.bubble = s.bubble := by
  obtain ⟨_, _, _, _, _, _, _, h⟩ := executeStage_shape r s; rw [h]
@[simp] theorem executeStage_predBit (r : Rec) (s : State) : (executeStage r s).2.predBit = s.predBit := by
  obtain ⟨_, _, _, _, _, _, _, h⟩ := executeStage_shape r s; rw [h]
@[simp] theorem executeStage_phase (r : Rec) (s : State) : (executeStage r s).2.phase = s.phase := by
  obtain ⟨_, _, _, _, _, _, _, h⟩ := executeStage_shape r s; rw [h]
@[simp] theorem executeStage_done (r : Rec) (s : State) : (executeStage r s).2.done = s.done := by
  obtain ⟨_, _, _, _, _, _, _, h⟩ := executeStage_shape r s; rw [h]
@[simp] theorem executeStage_fatal (r : Rec) (s : State) : (executeStage r s).2.fatal = s.fatal := by
  obtain ⟨_, _, _, _, _, _, _, h⟩ := executeStage_shape r s; rw [h]
@[simp] theorem executeStage_fatalCode (r : Rec) (s : State) : (executeStage r s).2.fatalCode = s.fatalCode := by
  obtain ⟨_, _, _, _, _, _, _, h⟩ := executeStage_shape r s; rw [h]
@[simp] theorem executeStage_fatalInfo (r : Rec) (s : State) : (executeStage r s).2.fatalInfo = s.fatalInfo := by
  obtain ⟨_, _, _, _, _, _, _, h⟩ := executeStage_shape r s; rw [h]
@[simp] theorem executeStage_seqCtr (r : Rec) (s : State) : (executeStage r s).2.seqCtr = s.seqCtr := by
  obtain ⟨_, _, _, _, _, _, _, h⟩ := executeStage_shape r s; rw [h]
@[simp] theorem executeStage_params (r : Rec) (s : State) : (executeStage r s).2.params = s.params := by
  obtain ⟨_, _, _, _, _, _, _, h⟩ := executeStage_shape r s; rw [h]
@[simp] theorem executeStage_imem (r : Rec) (s : State) : (executeStage r s).2.imem = s.imem := by
  obtain ⟨_, _, _, _, _, _, _, h⟩ := executeStage_shape r s; rw [h]
@[simp] theorem executeStage_data (r : Rec) (s : State) : (executeStage r s).2.data = s.data := by
  obtain ⟨_, _, _, _, _, _, _, h⟩ := executeStage_shape r s; rw [h]
@[simp] theorem executeStage_stack (r : Rec) (s : State) : (executeStage r s).2.stack = s.stack := by
  obtain ⟨_, _, _, _, _, _, _, h⟩ := executeStage_shape r s; rw [h]

@[simp] theorem executeStage_rec_instr (r : Rec) (s : State) : (executeStage r s).1.instr = r.instr := by
  obtain ⟨_, _, _, _, _, _, _, h⟩ := executeStage_shape r s; rw [h]
@[simp] theorem executeStage_rec_fpc (r : Rec) (s : State) : (executeStage r s).1.fpc = r.fpc := by
  obtain ⟨_, _, _, _, _, _, _, h⟩ := executeStage_shape r s; rw [h]
@[simp] theorem executeStage_rec_seq (r : Rec) (s : State) : (executeStage r s).1.seq = r.seq := by
  obtain ⟨_, _, _, _, _, _, _, h⟩ := executeStage_shape r s; rw [h]
@[simp] theorem executeStage_rec_predTaken (r : Rec) (s : State) : (executeStage r s).1.predTaken = r.predTaken := by
  obtain ⟨_, _, _, _, _, _, _, h⟩ := executeStage_shape r s; rw [h]

/-! `memoryStage`: the fields it leaves alone -/

@[simp] theorem memoryStage_regs (r : Rec) (s : State) : (memoryStage r s).regs = s.regs := by
  obtain ⟨_, _, _, _, _, _, _, h⟩ := memoryStage_shape r s; rw [h]
@[simp] theorem memoryStage_pc (r : Rec) (s : State) : (memoryStage r s).pc = s.pc := by
  obtain ⟨_, _, _, _, _, _, _, h⟩ := memoryStage_shape r s; rw [h]
@[simp] theorem memoryStage_bufA (r : Rec) (s : State) : (memoryStage r s).bufA = s.bufA := by
  obtain ⟨_, _, _, _, _, _, _, h⟩ := memoryStage_shape r s; rw [h]
@[simp] theorem memoryStage_bufB (r : Rec) (s : State) : (memoryStage r s).bufB = s.bufB := by
  obtain ⟨_, _, _, _, _, _, _, h⟩ := memoryStage_shape r s; rw [h]
@[simp] theorem memoryStage_bufZ (r : Rec) (s : State) : (memoryStage r s).bufZ = s.bufZ := by
  obtain ⟨_, _, _, _, _, _, _, h⟩ := memoryStage_shape r s; rw [h]
@[simp] theorem memoryStage_bufM (r : Rec) (s : State) : (memoryStage r s).bufM = s.bufM := by
  obtain ⟨_, _, _, _, _, _, _, h⟩ := memoryStage_shape r s; rw [h]
@[simp] theorem memoryStage_slotF (r : Rec) (s : State) : (memoryStage r s).slotF = s.slotF := by
  obtain ⟨_, _, _, _, _, _, _, h⟩ := memoryStage_shape r s; rw [h]
@[simp] theorem memoryStage_slotD (r : Rec) (s : State) : (memoryStage r s).slotD = s.slotD := by
  obtain ⟨_, _, _, _, _, _, _, h⟩ := memoryStage_shape r s; rw [h]
@[simp] theorem memoryStage_slotX (r : Rec) (s : State) : (memoryStage r s).slotX = s.slotX := by
  obtain ⟨_, _, _, _, _, _, _, h⟩ := memoryStage_shape r s; rw [h]
@[simp] theorem memoryStage_slotW (r : Rec) (s : State) : (memoryStage r s).slotW = s.slotW := by
  obtain ⟨_, _, _, _, _, _, _, h⟩ := memoryStage_shape r s; rw [h]
@[simp] theorem memoryStage_slotS (r : Rec) (s : State) : (memoryStage r s).slotS = s.slotS := by
  obtain ⟨_, _, _, _, _, _, _, h⟩ := memoryStage_shape r s; rw [h]
@[simp] theorem memoryStage_win (r : Rec) (s : State) : (memoryStage r s).win = s.win := by
  obtain ⟨_, _, _, _, _, _, _, h⟩ := memoryStage_shape r s; rw [h]
@[simp] theorem memoryStage_ftab (r : Rec) (s : State) : (memoryStage r s).ftab = s.ftab := by
  obtain ⟨_, _, _, _, _, _, _, h⟩ := memoryStage_shape r s; rw [h]
@[simp] theorem memoryStage_bubble (r : Rec) (s : State) : (memoryStage r s).bubble = s.bubble := by
  obtain ⟨_, _, _, _, _, _, _, h⟩ := memoryStage_shape r s; rw [h]
@[simp] theorem memoryStage_predBit (r : Rec) (s : State) : (memoryStage r s).predBit = s.predBit := by
  obtain ⟨_, _, _, _, _, _, _, h⟩ := memoryStage_shape r s; rw [h]
@[simp] theorem memoryStage_phase (r : Rec) (s : State) : (memoryStage r s).phase = s.phase := by
  obtain ⟨_, _, _, _, _, _, _, h⟩ := memoryStage_shape r s; rw [h]
@[simp] theorem memoryStage_done (r : Rec) (s : State) : (memoryStage r s).done = s.done := by
  obtain ⟨_, _, _, _, _, _, _, h⟩ := memoryStage_shape r s; rw [h]
@[simp] theorem memoryStage_fatal (r : Rec) (s : State) : (memoryStage r s).fatal = s.fatal := by
  obtain ⟨_, _, _, _, _, _, _, h⟩ := memoryStage_shape r s; rw [h]
@[simp] theorem memoryStage_fatalCode (r : Rec) (s : State) : (memoryStage r s).fatalCode = s.fatalCode := by
  obtain ⟨_, _, _, _, _, _, _, h⟩ := memoryStage_shape r s; rw [h]
@[simp] theorem memoryStage_fatalInfo (r : Rec) (s : State) : (memoryStage r s).fatalInfo = s.fatalInfo := by
  obtain ⟨_, _, _, _, _, _, _, h⟩ := memoryStage_shape r s; rw [h]
@[simp] theorem memoryStage_seqCtr (r : Rec) (s : State) : (memoryStage r s).seqCtr = s.seqCtr := by
  obtain ⟨_, _, _, _, _, _, _, h⟩ := memoryStage_shape r s; rw [h]
@[simp] theorem memoryStage_params (r : Rec) (s : State) : (memoryStage r s).params = s.params := by
  obtain ⟨_, _, _, _, _, _, _, h⟩ := memoryStage_shape r s; rw [h]
@[simp] theorem memoryStage_imem (r : Rec) (s : State) : (memoryStage r s).imem = s.imem := by
  obtain ⟨_, _, _, _, _, _, _, h⟩ := memoryStage_shape r s; rw [h]

/-! `resolveControl`: the fields it leaves alone -/

@[simp] theorem resolveControl_regs (i : Rec) (s : State) : (resolveControl i s).1.regs = s.regs := by
  obtain ⟨_, _, _, _, h⟩ := resolveControl_shape i s; rw [h]
@[simp] theorem resolveControl_bufA (i : Rec) (s : State) : (resolveControl i s).1.bufA = s.bufA := by
  obtain ⟨_, _, _, _, h⟩ := resolveControl_shape i s; rw [h]
@[simp] theorem resolveControl_bufB (i : Rec) (s : State) : (resolveControl i s).1.bufB = s.bufB := by
  obtain ⟨_, _, _, _, h⟩ := resolveControl_shape i s; rw [h]
@[simp] theorem resolveControl_bufZ (i : Rec) (s : State) : (resolveControl i s).1.bufZ = s.bufZ := by
  obtain ⟨_, _, _, _, h⟩ := resolveControl_shape i s; rw [h]
@[simp] theorem resolveControl_bufY (i : Rec) (s : State) : (resolveControl i s).1.bufY = s.bufY := by
  obtain ⟨_, _, _, _, h⟩ := resolveControl_shape i s; rw [h]
@[simp] theorem resolveControl_bufM (i : Rec) (s : State) : (resolveControl i s).1.bufM = s.bufM := by
  obtain ⟨_, _, _, _, h⟩ := resolveControl_shape i s; rw [h]
@[simp] theorem resolveControl_slotD (i : Rec) (s : State) : (resolveControl i s).1.slotD = s.slotD := by
  obtain ⟨_, _, _, _, h⟩ := resolveControl_shape i s; rw [h]
@[simp] theorem resolveControl_slotX (i : Rec) (s : State) : (resolveControl i s).1.slotX = s.slotX := by
  obtain ⟨_, _, _, _, h⟩ := resolveControl_shape i s; rw [h]
@[simp] theorem resolveControl_slotW (i : Rec) (s : State) : (resolveControl i s).1.slotW = s.slotW := by
  obtain ⟨_, _, _, _, h⟩ := resolveControl_shape i s; rw [h]
@[simp] theorem resolveControl_slotS (i : Rec) (s : State) : (resolveControl i s).1.slotS = s.slotS := by
  obtain ⟨_, _, _, _, h⟩ := resolveControl_shape i s; rw [h]
@[simp] theorem resolveControl_win (i : Rec) (s : State) : (resolveControl i s).1.win = s.win := by
  obtain ⟨_, _, _, _, h⟩ := resolveControl_shape i s; rw [h]
@[simp] theorem resolveControl_ftab (i : Rec) (s : State) : (resolveControl i s).1.ftab = s.ftab := by
  obtain ⟨_, _, _, _, h⟩ := resolveControl_shape i s; rw [h]
@[simp] theorem resolveControl_bubble (i : Rec) (s : State) : (resolveControl i s).1.bubble = s.bubble := by
  obtain ⟨_, _, _, _, h⟩ := resolveControl_shape i s; rw [h]
@[simp] theorem resolveControl_phase (i : Rec) (s : State) : (resolveControl i s).1.phase = s.phase := by
  obtain ⟨_, _, _, _, h⟩ := resolveControl_shape i s; rw [h]
@[simp] theorem resolveControl_done (i : Rec) (s : State) : (resolveControl i s).1.done = s.done := by
  obtain ⟨_, _, _, _, h⟩ := resolveControl_shape i s; rw [h]
@[simp] theorem resolveControl_fatal (i : Rec) (s : State) : (resolveControl i s).1.fatal = s.fatal := by
  obtain ⟨_, _, _, _, h⟩ := resolveControl_shape i s; rw [h]
@[simp] theorem resolveControl_fatalCode (i : Rec) (s : State) : (resolveControl i s).1.fatalCode = s.fatalCode := by
  obtain ⟨_, _, _, _, h⟩ := resolveControl_shape i s; rw [h]
@[simp] theorem resolveControl_fatalInfo (i : Rec) (s : State) : (resolveControl i s).1.fatalInfo = s.fatalInfo := by
  obtain ⟨_, _, _, _, h⟩ := resolveControl_shape i s; rw [h]
@[simp] theorem resolveControl_errSeen (i : Rec) (s : State) : (resolveControl i s).1.errSeen = s.errSeen := by
  obtain ⟨_, _, _, _, h⟩ := resolveControl_shape i s; rw [h]
@[simp] theorem resolveControl_errCode (i : Rec) (s : State) : (resolveControl i s).1.errCode = s.errCode := by
  obtain ⟨_, _, _, _, h⟩ := resolveControl_shape i s; rw [h]
@[simp] theorem resolveControl_errInfo (i : Rec) (s : State) : (resolveControl i s).1.errInfo = s.errInfo := by
  obtain ⟨_, _, _, _, h⟩ := resolveControl_shape i s; rw [h]
@[simp] theorem resolveControl_seqCtr (i : Rec) (s : State) : (resolveControl i s).1.seqCtr = s.seqCtr := by
  obtain ⟨_, _, _, _, h⟩ := resolveControl_shape i s; rw [h]
@[simp] theorem resolveControl_params (i : Rec) (s : State) : (resolveControl i s).1.params = s.params := by
  obtain ⟨_, _, _, _, h⟩ := resolveControl_shape i s; rw [h]
@[simp] theorem resolveControl_imem (i : Rec) (s : State) : (resolveControl i s).1.imem = s.imem := by
  obtain ⟨_, _, _, _, h⟩ := resolveControl_shape i s; rw [h]
@[simp] theorem resolveControl_data (i : Rec) (s : State) : (resolveControl i s).1.data = s.data := by
  obtain ⟨_, _, _, _, h⟩ := resolveControl_shape i s; rw [h]
@[simp] theorem resolveControl_stack (i : Rec) (s : State) : (resolveControl i s).1.stack = s.stack := by
  obtain ⟨_, _, _, _, h⟩ := resolveControl_shape i s; rw [h]

/-! `writeback`: the fields it leaves alone -/

@[simp] theorem writeback_pc (i : Rec) (s : State) : (writeback i s).pc = s.pc := by
  unfold writeback; split <;> rfl
@[simp] theorem writeback_bufA (i : Rec) (s : State) : (writeback i s).bufA = s.bufA := by
  unfold writeback; split <;> rfl
@[simp] theorem writeback_bufB (i : Rec) (s : State) : (writeback i s).bufB = s.bufB := by
  unfold writeback; split <;> rfl
@[simp] theorem writeback_bufZ (i : Rec) (s : State) : (writeback i s).bufZ = s.bufZ := by
  unfold writeback; split <;> rfl
@[simp] theorem writeback_bufY (i : Rec) (s : State) : (writeback i s).bufY = s.bufY := by
  unfold writeback; split <;> rfl
@[simp] theorem writeback_bufM (i : Rec) (s : State) : (writeback i s).bufM = s.bufM := by
  unfold writeback; split <;> rfl
@[simp] theorem writeback_slotF (i : Rec) (s : State) : (writeback i s).slotF = s.slotF := by
  unfold writeback; split <;> rfl
@[simp] theorem writeback_slotD (i : Rec) (s : State) : (writeback i s).slotD = s.slotD := by
  unfold writeback; split <;> rfl
@[simp] theorem writeback_slotX (i : Rec) (s : State) : (writeback i s).slotX = s.slotX := by
  unfold writeback; split <;> rfl
@[simp] theorem writeback_slotW (i : Rec) (s : State) : (writeback i s).slotW = s.slotW := by
  unfold writeback; split <;> rfl
@[simp] theorem writeback_slotS (i : Rec) (s : State) : (writeback i s).slotS = s.slotS := by
  unfold writeback; split <;> rfl
@[simp] theorem writeback_win (i : Rec) (s : State) : (writeback i s).win = s.win := by
  unfold writeback; split <;> rfl
@[simp] theorem writeback_ftab (i : Rec) (s : State) : (writeback i s).ftab = s.ftab := by
  unfold writeback; split <;> rfl
@[simp] theorem writeback_bubble (i : Rec) (s : State) : (writeback i s).bubble = s.bubble := by
  unfold writeback; split <;> rfl
@[simp] theorem writeback_predBit (i : Rec) (s : State) : (writeback i s).predBit = s.predBit := by
  unfold writeback; split <;> rfl
@[simp] theorem writeback_phase (i : Rec) (s : State) : (writeback i s).phase = s.phase := by
  unfold writeback; split <;> rfl
@[simp] theorem writeback_done (i : Rec) (s : State) : (writeback i s).done = s.done := by
  unfold writeback; split <;> rfl
@[simp] theorem writeback_fatal (i : Rec) (s : State) : (writeback i s).fatal = s.fatal := by
  unfold writeback; split <;> rfl
@[simp] theorem writeback_fatalCode (i : Rec) (s : State) : (writeback i s).fatalCode = s.fatalCode := by
  unfold writeback; split <;> rfl
@[simp] theorem writeback_fatalInfo (i : Rec) (s : State) : (writeback i s).fatalInfo = s.fatalInfo := by
  unfold writeback; split <;> rfl
@[simp] theorem writeback_errSeen (i : Rec) (s : State) : (writeback i s).errSeen = s.errSeen := by
  unfold writeback; split <;> rfl
@[simp] theorem writeback_errCode (i : Rec) (s : State) : (writeback i s).errCode = s.errCode := by
  unfold writeback; split <;> rfl
@[simp] theorem writeback_errInfo (i : Rec) (s : State) : (writeback i s).errInfo = s.errInfo := by
  unfold writeback; split <;> rfl
@[simp] theorem writeback_seqCtr (i : Rec) (s : State) : (writeback i s).seqCtr = s.seqCtr := by
  unfold writeback; split <;> rfl
@[simp] theorem writeback_params (i : Rec) (s : State) : (writeback i s).params = s.params := by
  unfold writeback; split <;> rfl
@[simp] theorem writeback_imem (i : Rec) (s : State) : (writeback i s).imem = s.imem := by
  unfold writeback; split <;> rfl
@[simp] theorem writeback_data (i : Rec) (s : State) : (writeback i s).data = s.data := by
  unfold writeback; split <;> rfl
@[simp] theorem writeback_stack (i : Rec) (s : State) : (writeback i s).stack = s.stack := by
  unfold writeback; split <;> rfl
@[simp] theorem writeback_trace (i : Rec) (s : State) : (writeback i s).trace = s.trace := by
  unfold writeback; split <;> rfl

/-! `jumpAtWriteback`: the fields it leaves alone -/

@[simp] theorem jumpAtWriteback_regs (i : Rec) (s : State) : (jumpAtWriteback i s).regs = s.regs := by
  unfold jumpAtWriteback; split <;> rfl
@[simp] theorem jumpAtWriteback_bufA (i : Rec) (s : State) : (jumpAtWriteback i s).bufA = s.bufA := by
  unfold jumpAtWriteback; split <;> rfl
@[simp] theorem jumpAtWriteback_bufB (i : Rec) (s : State) : (jumpAtWriteback i s).bufB = s.bufB := by
  unfold jumpAtWriteback; split <;> rfl
@[simp] theorem jumpAtWriteback_bufZ (i : Rec) (s : State) : (jumpAtWriteback i s).bufZ = s.bufZ := by
  unfold jumpAtWriteback; split <;> rfl
@[simp] theorem jumpAtWriteback_bufY (i : Rec) (s : State) : (jumpAtWriteback i s).bufY = s.bufY := by
  unfold jumpAtWriteback; split <;> rfl
@[simp] theorem jumpAtWriteback_bufM (i : Rec) (s : State) : (jumpAtWriteback i s).bufM = s.bufM := by
  unfold jumpAtWriteback; split <;> rfl
@[simp] theorem jumpAtWriteback_slotF (i : Rec) (s : State) : (jumpAtWriteback i s).slotF = s.slotF := by
  unfold jumpAtWriteback; split <;> rfl
@[simp] theorem jumpAtWriteback_slotD (i : Rec) (s : State) : (jumpAtWriteback i s).slotD = s.slotD := by
  unfold jumpAtWriteback; split <;> rfl
@[simp] theorem jumpAtWriteback_slotX (i : Rec) (s : State) : (jumpAtWriteback i s).slotX = s.slotX := by
  unfold jumpAtWriteback; split <;> rfl
@[simp] theorem jumpAtWriteback_slotW (i : Rec) (s : State) : (jumpAtWriteback i s).slotW = s.slotW := by
  unfold jumpAtWriteback; split <;> rfl
@[simp] theorem jumpAtWriteback_slotS (i : Rec) (s : State) : (jumpAtWriteback i s).slotS = s.slotS := by
  unfold jumpAtWriteback; split <;> rfl
@[simp] theorem jumpAtWriteback_win (i : Rec) (s : State) : (jumpAtWriteback i s).win = s.win := by
  unfold jumpAtWriteback; split <;> rfl
@[simp] theorem jumpAtWriteback_ftab (i : Rec) (s : State) : (jumpAtWriteback i s).ftab = s.ftab := by
  unfold jumpAtWriteback; split <;> rfl
@[simp] theorem jumpAtWriteback_bubble (i : Rec) (s : State) : (jumpAtWriteback i s).bubble = s.bubble := by
  unfold jumpAtWriteback; split <;> rfl
@[simp] theorem jumpAtWriteback_predBit (i : Rec) (s : State) : (jumpAtWriteback i s).predBit = s.predBit := by
  unfold jumpAtWriteback; split <;> rfl
@[simp] theorem jumpAtWriteback_phase (i : Rec) (s : State) : (jumpAtWriteback i s).phase = s.phase := by
  unfold jumpAtWriteback; split <;> rfl
@[simp] theorem jumpAtWriteback_done (i : Rec) (s : State) : (jumpAtWriteback i s).done = s.done := by
  unfold jumpAtWriteback; split <;> rfl
@[simp] theorem jumpAtWriteback_fatal (i : Rec) (s : State) : (jumpAtWriteback i s).fatal = s.fatal := by
  unfold jumpAtWriteback; split <;> rfl
@[simp] theorem jumpAtWriteback_fatalCode (i : Rec) (s : State) : (jumpAtWriteback i s).fatalCode = s.fatalCode := by
  unfold jumpAtWriteback; split <;> rfl
@[simp] theorem jumpAtWriteback_fatalInfo (i : Rec) (s : State) : (jumpAtWriteback i s).fatalInfo = s.fatalInfo := by
  unfold jumpAtWriteback; split <;> rfl
@[simp] theorem jumpAtWriteback_errSeen (i : Rec) (s : State) : (jumpAtWriteback i s).errSeen = s.errSeen := by
  unfold jumpAtWriteback; split <;> rfl
@[simp] theorem jumpAtWriteback_errCode (i : Rec) (s : State) : (jumpAtWriteback i s).errCode = s.errCode := by
  unfold jumpAtWriteback; split <;> rfl
@[simp] theorem jumpAtWriteback_errInfo (i : Rec) (s : State) : (jumpAtWriteback i s).errInfo = s.errInfo := by
  unfold jumpAtWriteback; split <;> rfl
@[simp] theorem jumpAtWriteback_seqCtr (i : Rec) (s : State) : (jumpAtWriteback i s).seqCtr = s.seqCtr := by
  unfold jumpAtWriteback; split <;> rfl
@[simp] theorem jumpAtWriteback_params (i : Rec) (s : State) : (jumpAtWriteback i s).params = s.params := by
  unfold jumpAtWriteback; split <;> rfl
@[simp] theorem jumpAtWriteback_imem (i : Rec) (s : State) : (jumpAtWriteback i s).imem = s.imem := by
  unfold jumpAtWriteback; split <;> rfl
@[simp] theorem jumpAtWriteback_data (i : Rec) (s : State) : (jumpAtWriteback i s).data = s.data := by
  unfold jumpAtWriteback; split <;> rfl
@[simp] theorem jumpAtWriteback_stack (i : Rec) (s : State) : (jumpAtWriteback i s).stack = s.stack := by
  unfold jumpAtWriteback; split <;> rfl
@[simp] theorem jumpAtWriteback_trace (i : Rec) (s : State) : (jumpAtWriteback i s).trace = s.trace := by
  unfold jumpAtWriteback; split <;> rfl

/-! `branchAtExecute`: the fields it leaves alone -/

@[simp] theorem branchAtExecute_regs (i : Rec) (s : State) : (branchAtExecute i s).regs = s.regs := by
  unfold branchAtExecute; split <;> rfl
@[simp] theorem branchAtExecute_bufA (i : Rec) (s : State) : (branchAtExecute i s).bufA = s.bufA := by
  unfold branchAtExecute; split <;> rfl
@[simp] theorem branchAtExecute_bufB (i : Rec) (s : State) : (branchAtExecute i s).bufB = s.bufB := by
  unfold branchAtExecute; split <;> rfl
@[simp] theorem branchAtExecute_bufZ (i : Rec) (s : State) : (branchAtExecute i s).bufZ = s.bufZ := by
  unfold branchAtExecute; split <;> rfl
@[simp] theorem branchAtExecute_bufY (i : Rec) (s : State) : (branchAtExecute i s).bufY = s.bufY := by
  unfold branchAtExecute; split <;> rfl
@[simp] theorem branchAtExecute_bufM (i : Rec) (s : State) : (branchAtExecute i s).bufM = s.bufM := by
  unfold branchAtExecute; split <;> rfl
@[simp] theorem branchAtExecute_slotF (i : Rec) (s : State) : (branchAtExecute i s).slotF = s.slotF := by
  unfold branchAtExecute; split <;> rfl
@[simp] theorem branchAtExecute_slotD (i : Rec) (s : State) : (branchAtExecute i s).slotD = s.slotD := by
  unfold branchAtExecute; split <;> rfl
@[simp] theorem branchAtExecute_slotX (i : Rec) (s : State) : (branchAtExecute i s).slotX = s.slotX := by
  unfold branchAtExecute; split <;> rfl
@[simp] theorem branchAtExecute_slotW (i : Rec) (s : State) : (branchAtExecute i s).slotW = s.slotW := by
  unfold branchAtExecute; split <;> rfl
@[simp] theorem branchAtExecute_slotS (i : Rec) (s : State) : (branchAtExecute i s).slotS = s.slotS := by
  unfold branchAtExecute; split <;> rfl
@[simp] theorem branchAtExecute_win (i : Rec) (s : State) : (branchAtExecute i s).win = s.win := by
  unfold branchAtExecute; split <;> rfl
@[simp] theorem branchAtExecute_ftab (i : Rec) (s : State) : (branchAtExecute i s).ftab = s.ftab := by
  unfold branchAtExecute; split <;> rfl
@[simp] theorem branchAtExecute_bubble (i : Rec) (s : State) : (branchAtExecute i s).bubble = s.bubble := by
  unfold branchAtExecute; split <;> rfl
@[simp] theorem branchAtExecute_predBit (i : Rec) (s : State) : (branchAtExecute i s).predBit = s.predBit := by
  unfold branchAtExecute; split <;> rfl
@[simp] theorem branchAtExecute_phase (i : Rec) (s : State) : (branchAtExecute i s).phase = s.phase := by
  unfold branchAtExecute; split <;> rfl
@[simp] theorem branchAtExecute_done (i : Rec) (s : State) : (branchAtExecute i s).done = s.done := by
  unfold branchAtExecute; split <;> rfl
@[simp] theorem branchAtExecute_fatal (i : Rec) (s : State) : (branchAtExecute i s).fatal = s.fatal := by
  unfold branchAtExecute; split <;> rfl
@[simp] theorem branchAtExecute_fatalCode (i : Rec) (s : State) : (branchAtExecute i s).fatalCode = s.fatalCode := by
  unfold branchAtExecute; split <;> rfl
@[simp] theorem branchAtExecute_fatalInfo (i : Rec) (s : State) : (branchAtExecute i s).fatalInfo = s.fatalInfo := by
  unfold branchAtExecute; split <;> rfl
@[simp] theorem branchAtExecute_errSeen (i : Rec) (s : State) : (branchAtExecute i s).errSeen = s.errSeen := by
  unfold branchAtExecute; split <;> rfl
@[simp] theorem branchAtExecute_errCode (i : Rec) (s : State) : (branchAtExecute i s).errCode = s.errCode := by
  unfold branchAtExecute; split <;> rfl
@[simp] theorem branchAtExecute_errInfo (i : Rec) (s : State) : (branchAtExecute i s).errInfo = s.errInfo := by
  unfold branchAtExecute; split <;> rfl
@[simp] theorem branchAtExecute_seqCtr (i : Rec) (s : State) : (branchAtExecute i s).seqCtr = s.seqCtr := by
  unfold branchAtExecute; split <;> rfl
@[simp] theorem branchAtExecute_params (i : Rec) (s : State) : (branchAtExecute i s).params = s.params := by
  unfold branchAtExecute; split <;> rfl
@[simp] theorem branchAtExecute_imem (i : Rec) (s : State) : (branchAtExecute i s).imem = s.imem := by
  unfold branchAtExecute; split <;> rfl
@[simp] theorem branchAtExecute_data (i : Rec) (s : State) : (branchAtExecute i s).data = s.data := by
  unfold branchAtExecute; split <;> rfl
@[simp] theorem branchAtExecute_stack (i : Rec) (s : State) : (branchAtExecute i s).stack = s.stack := by
  unfold branchAtExecute; split <;> rfl
@[simp] theorem branchAtExecute_trace (i : Rec) (s : State) : (branchAtExecute i s).trace = s.trace := by
  unfold branchAtExecute; split <;> rfl

/-! `readOperands`: the fields it leaves alone -/

@[simp] theorem readOperands_regs (i : Instr) (s : State) : (readOperands i s).regs = s.regs := by
  rfl
@[simp] theorem readOperands_pc (i : Instr) (s : State) : (readOperands i s).pc = s.pc := by
  rfl
@[simp] theorem readOperands_bufZ (i : Instr) (s : State) : (readOperands i s).bufZ = s.bufZ := by
  rfl
@[simp] theorem readOperands_bufY (i : Instr) (s : State) : (readOperands i s).bufY = s.bufY := by
  rfl
@[simp] theorem readOperands_bufM (i : Instr) (s : State) : (readOperands i s).bufM = s.bufM := by
  rfl
@[simp] theorem readOperands_slotF (i : Instr) (s : State) : (readOperands i s).slotF = s.slotF := by
  rfl
@[simp] theorem readOperands_slotD (i : Instr) (s : State) : (readOperands i s).slotD = s.slotD := by
  rfl
@[simp] theorem readOperands_slotX (i : Instr) (s : State) : (readOperands i s).slotX = s.slotX := by
  rfl
@[simp] theorem readOperands_slotW (i : Instr) (s : State) : (readOperands i s).slotW = s.slotW := by
  rfl
@[simp] theorem readOperands_slotS (i : Instr) (s : State) : (readOperands i s).slotS = s.slotS := by
  rfl
@[simp] theorem readOperands_win (i : Instr) (s : State) : (readOperands i s).win = s.win := by
  rfl
@[simp] theorem readOperands_ftab (i : Instr) (s : State) : (readOperands i s).ftab = s.ftab := by
  rfl
@[simp] theorem readOperands_bubble (i : Instr) (s : State) : (readOperands i s).bubble = s.bubble := by
  rfl
@[simp] theorem readOperands_predBit (i : Instr) (s : State) : (readOperands i s).predBit = s.predBit := by
  rfl
@[simp] theorem readOperands_phase (i : Instr) (s : State) : (readOperands i s).phase = s.phase := by
  rfl
@[simp] theorem readOperands_done (i : Instr) (s : State) : (readOperands i s).done = s.done := by
  rfl
@[simp] theorem readOperands_fatal (i : Instr) (s : State) : (readOperands i s).fatal = s.fatal := by
  rfl
@[simp] theorem readOperands_fatalCode (i : Instr) (s : State) : (readOperands i s).fatalCode = s.fatalCode := by
  rfl
@[simp] theorem readOperands_fatalInfo (i : Instr) (s : State) : (readOperands i s).fatalInfo = s.fatalInfo := by
  rfl
@[simp] theorem readOperands_errSeen (i : Instr) (s : State) : (readOperands i s).errSeen = s.errSeen := by
  rfl
@[simp] theorem readOperands_errCode (i : Instr) (s : State) : (readOperands i s).errCode = s.errCode := by
  rfl
@[simp] theorem readOperands_errInfo (i : Instr) (s : State) : (readOperands i s).errInfo = s.errInfo := by
  rfl
@[simp] theorem readOperands_seqCtr (i : Instr) (s : State) : (readOperands i s).seqCtr = s.seqCtr := by
  rfl
@[simp] theorem readOperands_params (i : Instr) (s : State) : (readOperands i s).params = s.params := by
  rfl
@[simp] theorem readOperands_imem (i : Instr) (s : State) : (readOperands i s).imem = s.imem := by
  rfl
@[simp] theorem readOperands_data (i : Instr) (s : State) : (readOperands i s).data = s.data := by
  rfl
@[simp] theorem readOperands_stack (i : Instr) (s : State) : (readOperands i s).stack = s.stack := by
  rfl
@[simp] theorem readOperands_trace (i : Instr) (s : State) : (readOperands i s).trace = s.trace := by
  rfl

/-! `predictAtDecode`: the fields it leaves alone -/

@[simp] theorem predictAtDecode_regs (i : Rec) (s : State) : (predictAtDecode i s).2.regs = s.regs := by
  unfold predictAtDecode; split <;> rfl
@[simp] theorem predictAtDecode_bufA (i : Rec) (s : State) : (predictAtDecode i s).2.bufA = s.bufA := by
  unfold predictAtDecode; split <;> rfl
@[simp] theorem predictAtDecode_bufB (i : Rec) (s : State) : (predictAtDecode i s).2.bufB = s.bufB := by
  unfold predictAtDecode; split <;> rfl
@[simp] theorem predictAtDecode_bufZ (i : Rec) (s : State) : (predictAtDecode i s).2.bufZ = s.bufZ := by
  unfold predictAtDecode; split <;> rfl
@[simp] theorem predictAtDecode_bufY (i : Rec) (s : State) : (predictAtDecode i s).2.bufY = s.bufY := by
  unfold predictAtDecode; split <;> rfl
@[simp] theorem predictAtDecode_bufM (i : Rec) (s : State) : (predictAtDecode i s).2.bufM = s.bufM := by
  unfold predictAtDecode; split <;> rfl
@[simp] theorem predictAtDecode_slotF (i : Rec) (s : State) : (predictAtDecode i s).2.slotF = s.slotF := by
  unfold predictAtDecode; split <;> rfl
@[simp] theorem predictAtDecode_slotD (i : Rec) (s : State) : (predictAtDecode i s).2.slotD = s.slotD := by
  unfold predictAtDecode; split <;> rfl
@[simp] theorem predictAtDecode_slotX (i : Rec) (s : State) : (predictAtDecode i s).2.slotX = s.slotX := by
  unfold predictAtDecode; split <;> rfl
@[simp] theorem predictAtDecode_slotW (i : Rec) (s : State) : (predictAtDecode i s).2.slotW = s.slotW := by
  unfold predictAtDecode; split <;> rfl
@[simp] theorem predictAtDecode_slotS (i : Rec) (s : State) : (predictAtDecode i s).2.slotS = s.slotS := by
  unfold predictAtDecode; split <;> rfl
@[simp] theorem predictAtDecode_win (i : Rec) (s : State) : (predictAtDecode i s).2.win = s.win := by
  unfold predictAtDecode; split <;> rfl
@[simp] theorem predictAtDecode_ftab (i : Rec) (s : State) : (predictAtDecode i s).2.ftab = s.ftab := by
  unfold predictAtDecode; split <;> rfl
@[simp] theorem predictAtDecode_bubble (i : Rec) (s : State) : (predictAtDecode i s).2.bubble = s.bubble := by
  unfold predictAtDecode; split <;> rfl
@[simp] theorem predictAtDecode_predBit (i : Rec) (s : State) : (predictAtDecode i s).2.predBit = s.predBit := by
  unfold predictAtDecode; split <;> rfl
@[simp] theorem predictAtDecode_phase (i : Rec) (s : State) : (predictAtDecode i s).2.phase = s.phase := by
  unfold predictAtDecode; split <;> rfl
@[simp] theorem predictAtDecode_done (i : Rec) (s : State) : (predictAtDecode i s).2.done = s.done := by
  unfold predictAtDecode; split <;> rfl
@[simp] theorem predictAtDecode_fatal (i : Rec) (s : State) : (predictAtDecode i s).2.fatal = s.fatal := by
  unfold predictAtDecode; split <;> rfl
@[simp] theorem predictAtDecode_fatalCode (i : Rec) (s : State) : (predictAtDecode i s).2.fatalCode = s.fatalCode := by
  unfold predictAtDecode; split <;> rfl
@[simp] theorem predictAtDecode_fatalInfo (i : Rec) (s : State) : (predictAtDecode i s).2.fatalInfo = s.fatalInfo := by
  unfold predictAtDecode; split <;> rfl
@[simp] theorem predictAtDecode_errSeen (i : Rec) (s : State) : (predictAtDecode i s).2.errSeen = s.errSeen := by
  unfold predictAtDecode; split <;> rfl
@[simp] theorem predictAtDecode_errCode (i : Rec) (s : State) : (predictAtDecode i s).2.errCode = s.errCode := by
  unfold predictAtDecode; split <;> rfl
@[simp] theorem predictAtDecode_errInfo (i : Rec) (s : State) : (predictAtDecode i s).2.errInfo = s.errInfo := by
  unfold predictAtDecode; split <;> rfl
@[simp] theorem predictAtDecode_seqCtr (i : Rec) (s : State) : (predictAtDecode i s).2.seqCtr = s.seqCtr := by
  unfold predictAtDecode; split <;> rfl
@[simp] theorem predictAtDecode_params (i : Rec) (s : State) : (predictAtDecode i s).2.params = s.params := by
  unfold predictAtDecode; split <;> rfl
@[simp] theorem predictAtDecode_imem (i : Rec) (s : State) : (predictAtDecode i s).2.imem = s.imem := by
  unfold predictAtDecode; split <;> rfl
@[simp] theorem predictAtDecode_data (i : Rec) (s : State) : (predictAtDecode i s).2.data = s.data := by
  unfold predictAtDecode; split <;> rfl
@[simp] theorem predictAtDecode_stack (i : Rec) (s : State) : (predictAtDecode i s).2.stack = s.stack := by
  unfold predictAtDecode; split <;> rfl
@[simp] theorem predictAtDecode_trace (i : Rec) (s : State) : (predictAtDecode i s).2.trace = s.trace := by
  unfold predictAtDecode; split <;> rfl
@[simp] theorem predictAtDecode_rec_instr (i : Rec) (s : State) : (predictAtDecode i s).1.instr = i.instr := by
  unfold predictAtDecode; split <;> rfl
@[simp] theorem predictAtDecode_rec_fpc (i : Rec) (s : State) : (predictAtDecode i s).1.fpc = i.fpc := by
  unfold predictAtDecode; split <;> rfl
@[simp] theorem predictAtDecode_rec_seq (i : Rec) (s : State) : (predictAtDecode i s).1.seq = i.seq := by
  unfold predictAtDecode; split <;> rfl
@[simp] theorem predictAtDecode_rec_taken (i : Rec) (s : State) : (predictAtDecode i s).1.taken = i.taken := by
  unfold predictAtDecode; split <;> rfl

/-! `applyForwards`: the fields it leaves alone -/

@[simp] theorem applyForwards_regs (s : State) : (applyForwards s).regs = s.regs := by
  obtain ⟨_, _, _, h⟩ := applyForwards_shape s; rw [h]
@[simp] theorem applyForwards_pc (s : State) : (applyForwards s).pc = s.pc := by
  obtain ⟨_, _, _, h⟩ := applyForwards_shape s; rw [h]
@[simp] theorem applyForwards_bufZ (s : State) : (applyForwards s).bufZ = s.bufZ := by
  obtain ⟨_, _, _, h⟩ := applyForwards_shape s; rw [h]
@[simp] theorem applyForwards_bufY (s : State) : (applyForwards s).bufY = s.bufY := by
  obtain ⟨_, _, _, h⟩ := applyForwards_shape s; rw [h]
@[simp] theorem applyForwards_bufM (s : State) : (applyForwards s).bufM = s.bufM := by
  obtain ⟨_, _, _, h⟩ := applyForwards_shape s; rw [h]
@[simp] theorem applyForwards_slotF (s : State) : (applyForwards s).slotF = s.slotF := by
  obtain ⟨_, _, _, h⟩ := applyForwards_shape s; rw [h]
@[simp] theorem applyForwards_slotD (s : State) : (applyForwards s).slotD = s.slotD := by
  obtain ⟨_, _, _, h⟩ := applyForwards_shape s; rw [h]
@[simp] theorem applyForwards_slotX (s : State) : (applyForwards s).slotX = s.slotX := by
  obtain ⟨_, _, _, h⟩ := applyForwards_shape s; rw [h]
@[simp] theorem applyForwards_slotW (s : State) : (applyForwards s).slotW = s.slotW := by
  obtain ⟨_, _, _, h⟩ := applyForwards_shape s; rw [h]
@[simp] theorem applyForwards_slotS (s : State) : (applyForwards s).slotS = s.slotS := by
  obtain ⟨_, _, _, h⟩ := applyForwards_shape s; rw [h]
@[simp] theorem applyForwards_win (s : State) : (applyForwards s).win = s.win := by
  obtain ⟨_, _, _, h⟩ := applyForwards_shape s; rw [h]
@[simp] theorem applyForwards_bubble (s : State) : (applyForwards s).bubble = s.bubble := by
  obtain ⟨_, _, _, h⟩ := applyForwards_shape s; rw [h]
@[simp] theorem applyForwards_predBit (s : State) : (applyForwards s).predBit = s.predBit := by
  obtain ⟨_, _, _, h⟩ := applyForwards_shape s; rw [h]
@[simp] theorem applyForwards_phase (s : State) : (applyForwards s).phase = s.phase := by
  obtain ⟨_, _, _, h⟩ := applyForwards_shape s; rw [h]
@[simp] theorem applyForwards_done (s : State) : (applyForwards s).done = s.done := by
  obtain ⟨_, _, _, h⟩ := applyForwards_shape s; rw [h]
@[simp] theorem applyForwards_fatal (s : State) : (applyForwards s).fatal = s.fatal := by
  obtain ⟨_, _, _, h⟩ := applyForwards_shape s; rw [h]
@[simp] theorem applyForwards_fatalCode (s : State) : (applyForwards s).fatalCode = s.fatalCode := by
  obtain ⟨_, _, _, h⟩ := applyForwards_shape s; rw [h]
@[simp] theorem applyForwards_fatalInfo (s : State) : (applyForwards s).fatalInfo = s.fatalInfo := by
  obtain ⟨_, _, _, h⟩ := applyForwards_shape s; rw [h]
@[simp] theorem applyForwards_errSeen (s : State) : (applyForwards s).errSeen = s.errSeen := by
  obtain ⟨_, _, _, h⟩ := applyForwards_shape s; rw [h]
@[simp] theorem applyForwards_errCode (s : State) : (applyForwards s).errCode = s.errCode := by
  obtain ⟨_, _, _, h⟩ := applyForwards_shape s; rw [h]
@[simp] theorem applyForwards_errInfo (s : State) : (applyForwards s).errInfo = s.errInfo := by
  obtain ⟨_, _, _, h⟩ := applyForwards_shape s; rw [h]
@[simp] theorem applyForwards_seqCtr (s : State) : (applyForwards s).seqCtr = s.seqCtr := by
  obtain ⟨_, _, _, h⟩ := applyForwards_shape s; rw [h]
@[simp] theorem applyForwards_params (s : State) : (applyForwards s).params = s.params := by
  obtain ⟨_, _, _, h⟩ := applyForwards_shape s; rw [h]
@[simp] theorem applyForwards_imem (s : State) : (applyForwards s).imem = s.imem := by
  obtain ⟨_, _, _, h⟩ := applyForwards_shape s; rw [h]
@[simp] theorem applyForwards_data (s : State) : (applyForwards s).data = s.data := by
  obtain ⟨_, _, _, h⟩ := applyForwards_shape s; rw [h]
@[simp] theorem applyForwards_stack (s : State) : (applyForwards s).stack = s.stack := by
  obtain ⟨_, _, _, h⟩ := applyForwards_shape s; rw [h]
@[simp] theorem applyForwards_ftab (s : State) : (applyForwards s).ftab = [] := rfl

/-! `enterD`: the fields it leaves alone -/

@[simp] theorem enterD_regs (i : Rec) (s : State) : (enterD i s).regs = s.regs := by
  rfl
@[simp] theorem enterD_pc (i : Rec) (s : State) : (enterD i s).pc = s.pc := by
  rfl
@[simp] theorem enterD_bufA (i : Rec) (s : State) : (enterD i s).bufA = s.bufA := by
  rfl
@[simp] theorem enterD_bufB (i : Rec) (s : State) : (enterD i s).bufB = s.bufB := by
  rfl
@[simp] theorem enterD_bufZ (i : Rec) (s : State) : (enterD i s).bufZ = s.bufZ := by
  rfl
@[simp] theorem enterD_bufY (i : Rec) (s : State) : (enterD i s).bufY = s.bufY := by
  rfl
@[simp] theorem enterD_bufM (i : Rec) (s : State) : (enterD i s).bufM = s.bufM := by
  rfl
@[simp] theorem enterD_slotF (i : Rec) (s : State) : (enterD i s).slotF = s.slotF := by
  rfl
@[simp] theorem enterD_slotX (i : Rec) (s : State) : (enterD i s).slotX = s.slotX := by
  rfl
@[simp] theorem enterD_slotW (i : Rec) (s : State) : (enterD i s).slotW = s.slotW := by
  rfl
@[simp] theorem enterD_slotS (i : Rec) (s : State) : (enterD i s).slotS = s.slotS := by
  rfl
@[simp] theorem enterD_ftab (i : Rec) (s : State) : (enterD i s).ftab = s.ftab := by
  rfl
@[simp] theorem enterD_bubble (i : Rec) (s : State) : (enterD i s).bubble = s.bubble := by
  rfl
@[simp] theorem enterD_predBit (i : Rec) (s : State) : (enterD i s).predBit = s.predBit := by
  rfl
@[simp] theorem enterD_phase (i : Rec) (s : State) : (enterD i s).phase = s.phase := by
  rfl
@[simp] theorem enterD_done (i : Rec) (s : State) : (enterD i s).done = s.done := by
  rfl
@[simp] theorem enterD_fatal (i : Rec) (s : State) : (enterD i s).fatal = s.fatal := by
  rfl
@[simp] theorem enterD_fatalCode (i : Rec) (s : State) : (enterD i s).fatalCode = s.fatalCode := by
  rfl
@[simp] theorem enterD_fatalInfo (i : Rec) (s : State) : (enterD i s).fatalInfo = s.fatalInfo := by
  rfl
@[simp] theorem enterD_errSeen (i : Rec) (s : State) : (enterD i s).errSeen = s.errSeen := by
  rfl
@[simp] theorem enterD_errCode (i : Rec) (s : State) : (enterD i s).errCode = s.errCode := by
  rfl
@[simp] theorem enterD_errInfo (i : Rec) (s : State) : (enterD i s).errInfo = s.errInfo := by
  rfl
@[simp] theorem enterD_seqCtr (i : Rec) (s : State) : (enterD i s).seqCtr = s.seqCtr := by
  rfl
@[simp] theorem enterD_params (i : Rec) (s : State) : (enterD i s).params = s.params := by
  rfl
@[simp] theorem enterD_imem (i : Rec) (s : State) : (enterD i s).imem = s.imem := by
  rfl
@[simp] theorem enterD_data (i : Rec) (s : State) : (enterD i s).data = s.data := by
  rfl
@[simp] theorem enterD_stack (i : Rec) (s : State) : (enterD i s).stack = s.stack := by
  rfl
@[simp] theorem enterD_trace (i : Rec) (s : State) : (enterD i s).trace = s.trace := by
  rfl
@[simp] theorem enterD_slotD (i : Rec) (s : State) : (enterD i s).slotD = some i := rfl
@[simp] theorem enterD_win (i : Rec) (s : State) : (enterD i s).win = s.win.setNewest i.instr.effDest := rfl

/-! `park`: the fields it leaves alone -/

@[simp] theorem park_regs (i : Rec) (n : Nat) (s : State) : (park i n s).regs = s.regs := by
  rfl
@[simp] theorem park_pc (i : Rec) (n : Nat) (s : State) : (park i n s).pc = s.pc := by
  rfl
@[simp] theorem park_bufA (i : Rec) (n : Nat) (s : State) : (park i n s).bufA = s.bufA := by
  rfl
@[simp] theorem park_bufB (i : Rec) (n : Nat) (s : State) : (park i n s).bufB = s.bufB := by
  rfl
@[simp] theorem park_bufZ (i : Rec) (n : Nat) (s : State) : (park i n s).bufZ = s.bufZ := by
  rfl
@[simp] theorem park_bufY (i : Rec) (n : Nat) (s : State) : (park i n s).bufY = s.bufY := by
  rfl
@[simp] theorem park_bufM (i : Rec) (n : Nat) (s : State) : (park i n s).bufM = s.bufM := by
  rfl
@[simp] theorem park_slotF (i : Rec) (n : Nat) (s : State) : (park i n s).slotF = s.slotF := by
  rfl
@[simp] theorem park_slotD (i : Rec) (n : Nat) (s : State) : (park i n s).slotD = s.slotD := by
  rfl
@[simp] theorem park_slotX (i : Rec) (n : Nat) (s : State) : (park i n s).slotX = s.slotX := by
  rfl
@[simp] theorem park_slotW (i : Rec) (n : Nat) (s : State) : (park i n s).slotW = s.slotW := by
  rfl
@[simp] theorem park_win (i : Rec) (n : Nat) (s : State) : (park i n s).win = s.win := by
  rfl
@[simp] theorem park_predBit (i : Rec) (n : Nat) (s : State) : (park i n s).predBit = s.predBit := by
  rfl
@[simp] theorem park_phase (i : Rec) (n : Nat) (s : State) : (park i n s).phase = s.phase := by
  rfl
@[simp] theorem park_done (i : Rec) (n : Nat) (s : State) : (park i n s).done = s.done := by
  rfl
@[simp] theorem park_fatal (i : Rec) (n : Nat) (s : State) : (park i n s).fatal = s.fatal := by
  rfl
@[simp] theorem park_fatalCode (i : Rec) (n : Nat) (s : State) : (park i n s).fatalCode = s.fatalCode := by
  rfl
@[simp] theorem park_fatalInfo (i : Rec) (n : Nat) (s : State) : (park i n s).fatalInfo = s.fatalInfo := by
  rfl
@[simp] theorem park_errSeen (i : Rec) (n : Nat) (s : State) : (park i n s).errSeen = s.errSeen := by
  rfl
@[simp] theorem park_errCode (i : Rec) (n : Nat) (s : State) : (park i n s).errCode = s.errCode := by
  rfl
@[simp] theorem park_errInfo (i : Rec) (n : Nat) (s : State) : (park i n s).errInfo = s.errInfo := by
  rfl
@[simp] theorem park_seqCtr (i : Rec) (n : Nat) (s : State) : (park i n s).seqCtr = s.seqCtr := by
  rfl
@[simp] theorem park_params (i : Rec) (n : Nat) (s : State) : (park i n s).params = s.params := by
  rfl
@[simp] theorem park_imem (i : Rec) (n : Nat) (s : State) : (park i n s).imem = s.imem := by
  rfl
@[simp] theorem park_data (i : Rec) (n : Nat) (s : State) : (park i n s).data = s.data := by
  rfl
@[simp] theorem park_stack (i : Rec) (n : Nat) (s : State) : (park i n s).stack = s.stack := by
  rfl
@[simp] theorem park_bubble (i : Rec) (n : Nat) (s : State) : (park i n s).bubble = n := rfl
@[simp] theorem park_slotS (i : Rec) (n : Nat) (s : State) : (park i n s).slotS = some i := rfl

/-! `fetchWord`: the fields it leaves alone -/

@[simp] theorem fetchWord_regs (w : Word) (s : State) : (fetchWord w s).regs = s.regs := by
  rfl
@[simp] theorem fetchWord_bufA (w : Word) (s : State) : (fetchWord w s).bufA = s.bufA := by
  rfl
@[simp] theorem fetchWord_bufB (w : Word) (s : State) : (fetchWord w s).bufB = s.bufB := by
  rfl
@[simp] theorem fetchWord_bufZ (w : Word) (s : State) : (fetchWord w s).bufZ = s.bufZ := by
  rfl
@[simp] theorem fetchWord_bufY (w : Word) (s : State) : (fetchWord w s).bufY = s.bufY := by
  rfl
@[simp] theorem fetchWord_bufM (w : Word) (s : State) : (fetchWord w s).bufM = s.bufM := by
  rfl
@[simp] theorem fetchWord_slotD (w : Word) (s : State) : (fetchWord w s).slotD = s.slotD := by
  rfl
@[simp] theorem fetchWord_slotX (w : Word) (s : State) : (fetchWord w s).slotX = s.slotX := by
  rfl
@[simp] theorem fetchWord_slotW (w : Word) (s : State) : (fetchWord w s).slotW = s.slotW := by
  rfl
@[simp] theorem fetchWord_slotS (w : Word) (s : State) : (fetchWord w s).slotS = s.slotS := by
  rfl
@[simp] theorem fetchWord_win (w : Word) (s : State) : (fetchWord w s).win = s.win := by
  rfl
@[simp] theorem fetchWord_ftab (w : Word) (s : State) : (fetchWord w s).ftab = s.ftab := by
  rfl
@[simp] theorem fetchWord_bubble (w : Word) (s : State) : (fetchWord w s).bubble = s.bubble := by
  rfl
@[simp] theorem fetchWord_predBit (w : Word) (s : State) : (fetchWord w s).predBit = s.predBit := by
  rfl
@[simp] theorem fetchWord_phase (w : Word) (s : State) : (fetchWord w s).phase = s.phase := by
  rfl
@[simp] theorem fetchWord_done (w : Word) (s : State) : (fetchWord w s).done = s.done := by
  rfl
@[simp] theorem fetchWord_fatal (w : Word) (s : State) : (fetchWord w s).fatal = s.fatal := by
  rfl
@[simp] theorem fetchWord_fatalCode (w : Word) (s : State) : (fetchWord w s).fatalCode = s.fatalCode := by
  rfl
@[simp] theorem fetchWord_fatalInfo (w : Word) (s : State) : (fetchWord w s).fatalInfo = s.fatalInfo := by
  rfl
@[simp] theorem fetchWord_errSeen (w : Word) (s : State) : (fetchWord w s).errSeen = s.errSeen := by
  rfl
@[simp] theorem fetchWord_errCode (w : Word) (s : State) : (fetchWord w s).errCode = s.errCode := by
  rfl
@[simp] theorem fetchWord_errInfo (w : Word) (s : State) : (fetchWord w s).errInfo = s.errInfo := by
  rfl
@[simp] theorem fetchWord_seqCtr (w : Word) (s : State) : (fetchWord w s).seqCtr = s.seqCtr := by
  rfl
@[simp] theorem fetchWord_params (w : Word) (s : State) : (fetchWord w s).params = s.params := by
  rfl
@[simp] theorem fetchWord_imem (w : Word) (s : State) : (fetchWord w s).imem = s.imem := by
  rfl
@[simp] theorem fetchWord_data (w : Word) (s : State) : (fetchWord w s).data = s.data := by
  rfl
@[simp] theorem fetchWord_stack (w : Word) (s : State) : (fetchWord w s).stack = s.stack := by
  rfl
@[simp] theorem fetchWord_slotF (w : Word) (s : State) : (fetchWord w s).slotF = some { word := w, fpc := s.pc } := rfl
@[simp] theorem fetchWord_pc (w : Word) (s : State) : (fetchWord w s).pc = s.pc + 4#32 := rfl

/-! `shiftWindow`: the fields it leaves alone -/

@[simp] theorem shiftWindow_regs (s : State) : (shiftWindow s).regs = s.regs := by
  rfl
@[simp] theorem shiftWindow_pc (s : State) : (shiftWindow s).pc = s.pc := by
  rfl
@[simp] theorem shiftWindow_bufA (s : State) : (shiftWindow s).bufA = s.bufA := by
  rfl
@[simp] theorem shiftWindow_bufB (s : State) : (shiftWindow s).bufB = s.bufB := by
  rfl
@[simp] theorem shiftWindow_bufZ (s : State) : (shiftWindow s).bufZ = s.bufZ := by
  rfl
@[simp] theorem shiftWindow_bufY (s : State) : (shiftWindow s).bufY = s.bufY := by
  rfl
@[simp] theorem shiftWindow_bufM (s : State) : (shiftWindow s).bufM = s.bufM := by
  rfl
@[simp] theorem shiftWindow_slotF (s : State) : (shiftWindow s).slotF = s.slotF := by
  rfl
@[simp] theorem shiftWindow_slotD (s : State) : (shiftWindow s).slotD = s.slotD := by
  rfl
@[simp] theorem shiftWindow_slotX (s : State) : (shiftWindow s).slotX = s.slotX := by
  rfl
@[simp] theorem shiftWindow_slotW (s : State) : (shiftWindow s).slotW = s.slotW := by
  rfl
@[simp] theorem shiftWindow_slotS (s : State) : (shiftWindow s).slotS = s.slotS := by
  rfl
@[simp] theorem shiftWindow_ftab (s : State) : (shiftWindow s).ftab = s.ftab := by
  rfl
@[simp] theorem shiftWindow_bubble (s : State) : (shiftWindow s).bubble = s.bubble := by
  rfl
@[simp] theorem shiftWindow_predBit (s : State) : (shiftWindow s).predBit = s.predBit := by
  rfl
@[simp] theorem shiftWindow_phase (s : State) : (shiftWindow s).phase = s.phase := by
  rfl
@[simp] theorem shiftWindow_done (s : State) : (shiftWindow s).done = s.done := by
  rfl
@[simp] theorem shiftWindow_fatal (s : State) : (shiftWindow s).fatal = s.fatal := by
  rfl
@[simp] theorem shiftWindow_fatalCode (s : State) : (shiftWindow s).fatalCode = s.fatalCode := by
  rfl
@[simp] theorem shiftWindow_fatalInfo (s : State) : (shiftWindow s).fatalInfo = s.fatalInfo := by
  rfl
@[simp] theorem shiftWindow_errSeen (s : State) : (shiftWindow s).errSeen = s.errSeen := by
  rfl
@[simp] theorem shiftWindow_errCode (s : State) : (shiftWindow s).errCode = s.errCode := by
  rfl
@[simp] theorem shiftWindow_errInfo (s : State) : (shiftWindow s).errInfo = s.errInfo := by
  rfl
@[simp] theorem shiftWindow_seqCtr (s : State) : (shiftWindow s).seqCtr = s.seqCtr := by
  rfl
@[simp] theorem shiftWindow_params (s : State) : (shiftWindow s).params = s.params := by
  rfl
@[simp] theorem shiftWindow_imem (s : State) : (shiftWindow s).imem = s.imem := by
  rfl
@[simp] theorem shiftWindow_data (s : State) : (shiftWindow s).data = s.data := by
  rfl
@[simp] theorem shiftWindow_stack (s : State) : (shiftWindow s).stack = s.stack := by
  rfl
@[simp] theorem shiftWindow_trace (s : State) : (shiftWindow s).trace = s.trace := by
  rfl
@[simp] theorem shiftWindow_win (s : State) : (shiftWindow s).win = s.win.shift := rfl

/-! `decrementBubble`: the fields it leaves alone -/

@[simp] theorem decrementBubble_regs (s : State) : (decrementBubble s).regs = s.regs := by
  rfl
@[simp] theorem decrementBubble_pc (s : State) : (decrementBubble s).pc = s.pc := by
  rfl
@[simp] theorem decrementBubble_bufA (s : State) : (decrementBubble s).bufA = s.bufA := by
  rfl
@[simp] theorem decrementBubble_bufB (s : State) : (decrementBubble s).bufB = s.bufB := by
  rfl
@[simp] theorem decrementBubble_bufZ (s : State) : (decrementBubble s).bufZ = s.bufZ := by
  rfl
@[simp] theorem decrementBubble_bufY (s : State) : (decrementBubble s).bufY = s.bufY := by
  rfl
@[simp] theorem decrementBubble_bufM (s : State) : (decrementBubble s).bufM = s.bufM := by
  rfl
@[simp] theorem decrementBubble_slotF (s : State) : (decrementBubble s).slotF = s.slotF := by
  rfl
@[simp] theorem decrementBubble_slotD (s : State) : (decrementBubble s).slotD = s.slotD := by
  rfl
@[simp] theorem decrementBubble_slotX (s : State) : (decrementBubble s).slotX = s.slotX := by
  rfl
@[simp] theorem decrementBubble_slotW (s : State) : (decrementBubble s).slotW = s.slotW := by
  rfl
@[simp] theorem decrementBubble_slotS (s : State) : (decrementBubble s).slotS = s.slotS := by
  rfl
@[simp] theorem decrementBubble_win (s : State) : (decrementBubble s).win = s.win := by
  rfl
@[simp] theorem decrementBubble_ftab (s : State) : (decrementBubble s).ftab = s.ftab := by
  rfl
@[simp] theorem decrementBubble_predBit (s : State) : (decrementBubble s).predBit = s.predBit := by
  rfl
@[simp] theorem decrementBubble_phase (s : State) : (decrementBubble s).phase = s.phase := by
  rfl
@[simp] theorem decrementBubble_done (s : State) : (decrementBubble s).done = s.done := by
  rfl
@[simp] theorem decrementBubble_fatal (s : State) : (decrementBubble s).fatal = s.fatal := by
  rfl
@[simp] theorem decrementBubble_fatalCode (s : State) : (decrementBubble s).fatalCode = s.fatalCode := by
  rfl
@[simp] theorem decrementBubble_fatalInfo (s : State) : (decrementBubble s).fatalInfo = s.fatalInfo := by
  rfl
@[simp] theorem decrementBubble_errSeen (s : State) : (decrementBubble s).errSeen = s.errSeen := by
  rfl
@[simp] theorem decrementBubble_errCode (s : State) : (decrementBubble s).errCode = s.errCode := by
  rfl
@[simp] theorem decrementBubble_errInfo (s : State) : (decrementBubble s).errInfo = s.errInfo := by
  rfl
@[simp] theorem decrementBubble_seqCtr (s : State) : (decrementBubble s).seqCtr = s.seqCtr := by
  rfl
@[simp] theorem decrementBubble_params (s : State) : (decrementBubble s).params = s.params := by
  rfl
@[simp] theorem decrementBubble_imem (s : State) : (decrementBubble s).imem = s.imem := by
  rfl
@[simp] theorem decrementBubble_data (s : State) : (decrementBubble s).data = s.data := by
  rfl
@[simp] theorem decrementBubble_stack (s : State) : (decrementBubble s).stack = s.stack := by
  rfl
@[simp] theorem decrementBubble_trace (s : State) : (decrementBubble s).trace = s.trace := by
  rfl
@[simp] theorem decrementBubble_bubble (s : State) : (decrementBubble s).bubble = s.bubble - 1 := rfl

end Sys2Proof.Machine
end

