-- ==== Sys2Proof/Laws/Views.lean ====
section
/-! SUPPORT. The views of the state (a register, a space, a byte, the fetch, the flags) after each update that
does not concern them. -/

namespace Sys2Proof.Machine

variable (s : State)

@[simp] theorem State.setPc_readReg (t : Word) (r : Reg) : (s.setPc t).readReg r = s.readReg r := rfl
@[simp] theorem State.setPc_space (t : Word) (g : Region) : (s.setPc t).space g = s.space g := rfl
@[simp] theorem State.setPc_readByte (t : Word) (g : Region) (x : Nat) : (s.setPc t).readByte g x = s.readByte g x := rfl
@[simp] theorem State.setPc_ifetch (t : Word) (x : Word) : (s.setPc t).ifetch x = s.ifetch x := rfl
@[simp] theorem State.setPc_fwdOn (t : Word) : (s.setPc t).fwdOn = s.fwdOn := rfl
@[simp] theorem State.setPc_predOn (t : Word) : (s.setPc t).predOn = s.predOn := rfl
@[simp] theorem State.setPc_halted (t : Word) : (s.setPc t).halted = s.halted := rfl

@[simp] theorem State.setAB_readReg (a b : Word) (r : Reg) : (s.setAB a b).readReg r = s.readReg r := rfl
@[simp] theorem State.setAB_space (a b : Word) (g : Region) : (s.setAB a b).space g = s.space g := rfl
@[simp] theorem State.setAB_readByte (a b : Word) (g : Region) (x : Nat) : (s.setAB a b).readByte g x = s.readByte g x := rfl
@[simp] theorem State.setAB_ifetch (a b : Word) (x : Word) : (s.setAB a b).ifetch x = s.ifetch x := rfl
@[simp] theorem State.setAB_fwdOn (a b : Word) : (s.setAB a b).fwdOn = s.fwdOn := rfl
@[simp] theorem State.setAB_predOn (a b : Word) : (s.setAB a b).predOn = s.predOn := rfl
@[simp] theorem State.setAB_halted (a b : Word) : (s.setAB a b).halted = s.halted := rfl

@[simp] theorem State.setA_readReg (a : Word) (r : Reg) : (s.setA a).readReg r = s.readReg r := rfl
@[simp] theorem State.setA_space (a : Word) (g : Region) : (s.setA a).space g = s.space g := rfl
@[simp] theorem State.setA_readByte (a : Word) (g : Region) (x : Nat) : (s.setA a).readByte g x = s.readByte g x := rfl
@[simp] theorem State.setA_ifetch (a : Word) (x : Word) : (s.setA a).ifetch x = s.ifetch x := rfl
@[simp] theorem State.setA_fwdOn (a : Word) : (s.setA a).fwdOn = s.fwdOn := rfl
@[simp] theorem State.setA_predOn (a : Word) : (s.setA a).predOn = s.predOn := rfl
@[simp] theorem State.setA_halted (a : Word) : (s.setA a).halted = s.halted := rfl

@[simp] theorem State.setB_readReg (b : Word) (r : Reg) : (s.setB b).readReg r = s.readReg r := rfl
@[simp] theorem State.setB_space (b : Word) (g : Region) : (s.setB b).space g = s.space g := rfl
@[simp] theorem State.setB_readByte (b : Word) (g : Region) (x : Nat) : (s.setB b).readByte g x = s.readByte g x := rfl
@[simp] theorem State.setB_ifetch (b : Word) (x : Word) : (s.setB b).ifetch x = s.ifetch x := rfl
@[simp] theorem State.setB_fwdOn (b : Word) : (s.setB b).fwdOn = s.fwdOn := rfl
@[simp] theorem State.setB_predOn (b : Word) : (s.setB b).predOn = s.predOn := rfl
@[simp] theorem State.setB_halted (b : Word) : (s.setB b).halted = s.halted := rfl

@[simp] theorem State.setZ_readReg (v : Word) (r : Reg) : (s.setZ v).readReg r = s.readReg r := rfl
@[simp] theorem State.setZ_space (v : Word) (g : Region) : (s.setZ v).space g = s.space g := rfl
@[simp] theorem State.setZ_readByte (v : Word) (g : Region) (x : Nat) : (s.setZ v).readByte g x = s.readByte g x := rfl
@[simp] theorem State.setZ_ifetch (v : Word) (x : Word) : (s.setZ v).ifetch x = s.ifetch x := rfl
@[simp] theorem State.setZ_fwdOn (v : Word) : (s.setZ v).fwdOn = s.fwdOn := rfl
@[simp] theorem State.setZ_predOn (v : Word) : (s.setZ v).predOn = s.predOn := rfl
@[simp] theorem State.setZ_halted (v : Word) : (s.setZ v).halted = s.halted := rfl

@[simp] theorem State.setY_readReg (v : Word) (r : Reg) : (s.setY v).readReg r = s.readReg r := rfl
@[simp] theorem State.setY_space (v : Word) (g : Region) : (s.setY v).space g = s.space g := rfl
@[simp] theorem State.setY_readByte (v : Word) (g : Region) (x : Nat) : (s.setY v).readByte g x = s.readByte g x := rfl
@[simp] theorem State.setY_ifetch (v : Word) (x : Word) : (s.setY v).ifetch x = s.ifetch x := rfl
@[simp] theorem State.setY_fwdOn (v : Word) : (s.setY v).fwdOn = s.fwdOn := rfl
@[simp] theorem State.setY_predOn (v : Word) : (s.setY v).predOn = s.predOn := rfl
@[simp] theorem State.setY_halted (v : Word) : (s.setY v).halted = s.halted := rfl

@[simp] theorem State.setM_readReg (v : Word) (r : Reg) : (s.setM v).readReg r = s.readReg r := rfl
@[simp] theorem State.setM_space (v : Word) (g : Region) : (s.setM v).space g = s.space g := rfl
@[simp] theorem State.setM_readByte (v : Word) (g : Region) (x : Nat) : (s.setM v).readByte g x = s.readByte g x := rfl
@[simp] theorem State.setM_ifetch (v : Word) (x : Word) : (s.setM v).ifetch x = s.ifetch x := rfl
@[simp] theorem State.setM_fwdOn (v : Word) : (s.setM v).fwdOn = s.fwdOn := rfl
@[simp] theorem State.setM_predOn (v : Word) : (s.setM v).predOn = s.predOn := rfl
@[simp] theorem State.setM_halted (v : Word) : (s.setM v).halted = s.halted := rfl

@[simp] theorem State.emit_readReg (e : Event) (r : Reg) : (s.emit e).readReg r = s.readReg r := rfl
@[simp] theorem State.emit_space (e : Event) (g : Region) : (s.emit e).space g = s.space g := rfl
@[simp] theorem State.emit_readByte (e : Event) (g : Region) (x : Nat) : (s.emit e).readByte g x = s.readByte g x := rfl
@[simp] theorem State.emit_ifetch (e : Event) (x : Word) : (s.emit e).ifetch x = s.ifetch x := rfl
@[simp] theorem State.emit_fwdOn (e : Event) : (s.emit e).fwdOn = s.fwdOn := rfl
@[simp] theorem State.emit_predOn (e : Event) : (s.emit e).predOn = s.predOn := rfl
@[simp] theorem State.emit_halted (e : Event) : (s.emit e).halted = s.halted := rfl

@[simp] theorem State.beginStep_readReg (r : Reg) : (s.beginStep).readReg r = s.readReg r := rfl
@[simp] theorem State.beginStep_space (g : Region) : (s.beginStep).space g = s.space g := rfl
@[simp] theorem State.beginStep_readByte (g : Region) (x : Nat) : (s.beginStep).readByte g x = s.readByte g x := rfl
@[simp] theorem State.beginStep_ifetch (x : Word) : (s.beginStep).ifetch x = s.ifetch x := rfl
@[simp] theorem State.beginStep_fwdOn : (s.beginStep).fwdOn = s.fwdOn := rfl
@[simp] theorem State.beginStep_predOn : (s.beginStep).predOn = s.predOn := rfl
@[simp] theorem State.beginStep_halted : (s.beginStep).halted = s.halted := rfl

@[simp] theorem State.log_readReg (c : ErrCode) (w : Word) (r : Reg) : (s.log c w).readReg r = s.readReg r := rfl
@[simp] theorem State.log_space (c : ErrCode) (w : Word) (g : Region) : (s.log c w).space g = s.space g := rfl
@[simp] theorem State.log_readByte (c : ErrCode) (w : Word) (g : Region) (x : Nat) : (s.log c w).readByte g x = s.readByte g x := rfl
@[simp] theorem State.log_ifetch (c : ErrCode) (w : Word) (x : Word) : (s.log c w).ifetch x = s.ifetch x := rfl
@[simp] theorem State.log_fwdOn (c : ErrCode) (w : Word) : (s.log c w).fwdOn = s.fwdOn := rfl
@[simp] theorem State.log_predOn (c : ErrCode) (w : Word) : (s.log c w).predOn = s.predOn := rfl
@[simp] theorem State.log_halted (c : ErrCode) (w : Word) : (s.log c w).halted = s.halted := rfl

@[simp] theorem State.raiseFatal_readReg (c : ErrCode) (w : Word) (r : Reg) : (s.raiseFatal c w).readReg r = s.readReg r := rfl
@[simp] theorem State.raiseFatal_space (c : ErrCode) (w : Word) (g : Region) : (s.raiseFatal c w).space g = s.space g := rfl
@[simp] theorem State.raiseFatal_readByte (c : ErrCode) (w : Word) (g : Region) (x : Nat) : (s.raiseFatal c w).readByte g x = s.readByte g x := rfl
@[simp] theorem State.raiseFatal_ifetch (c : ErrCode) (w : Word) (x : Word) : (s.raiseFatal c w).ifetch x = s.ifetch x := rfl
@[simp] theorem State.raiseFatal_fwdOn (c : ErrCode) (w : Word) : (s.raiseFatal c w).fwdOn = s.fwdOn := rfl
@[simp] theorem State.raiseFatal_predOn (c : ErrCode) (w : Word) : (s.raiseFatal c w).predOn = s.predOn := rfl

@[simp] theorem State.finish_readReg (r : Reg) : (s.finish).readReg r = s.readReg r := rfl
@[simp] theorem State.finish_space (g : Region) : (s.finish).space g = s.space g := rfl
@[simp] theorem State.finish_readByte (g : Region) (x : Nat) : (s.finish).readByte g x = s.readByte g x := rfl
@[simp] theorem State.finish_ifetch (x : Word) : (s.finish).ifetch x = s.ifetch x := rfl
@[simp] theorem State.finish_fwdOn : (s.finish).fwdOn = s.fwdOn := rfl
@[simp] theorem State.finish_predOn : (s.finish).predOn = s.predOn := rfl

@[simp] theorem State.writeReg_space (r : Reg) (v : Word) (g : Region) : (s.writeReg r v).space g = s.space g := rfl
@[simp] theorem State.writeReg_readByte (r : Reg) (v : Word) (g : Region) (x : Nat) : (s.writeReg r v).readByte g x = s.readByte g x := rfl
@[simp] theorem State.writeReg_ifetch (r : Reg) (v : Word) (x : Word) : (s.writeReg r v).ifetch x = s.ifetch x := rfl
@[simp] theorem State.writeReg_fwdOn (r : Reg) (v : Word) : (s.writeReg r v).fwdOn = s.fwdOn := rfl
@[simp] theorem State.writeReg_predOn (r : Reg) (v : Word) : (s.writeReg r v).predOn = s.predOn := rfl
@[simp] theorem State.writeReg_halted (r : Reg) (v : Word) : (s.writeReg r v).halted = s.halted := rfl

@[simp] theorem State.countDecode_readReg (r : Reg) : (s.countDecode).readReg r = s.readReg r := rfl
@[simp] theorem State.countDecode_space (g : Region) : (s.countDecode).space g = s.space g := rfl
@[simp] theorem State.countDecode_readByte (g : Region) (x : Nat) : (s.countDecode).readByte g x = s.readByte g x := rfl
@[simp] theorem State.countDecode_ifetch (x : Word) : (s.countDecode).ifetch x = s.ifetch x := rfl
@[simp] theorem State.countDecode_fwdOn : (s.countDecode).fwdOn = s.fwdOn := rfl
@[simp] theorem State.countDecode_predOn : (s.countDecode).predOn = s.predOn := rfl
@[simp] theorem State.countDecode_halted : (s.countDecode).halted = s.halted := rfl

@[simp] theorem State.addForwards_readReg (es : List FwdEntry) (r : Reg) : (s.addForwards es).readReg r = s.readReg r := rfl
@[simp] theorem State.addForwards_space (es : List FwdEntry) (g : Region) : (s.addForwards es).space g = s.space g := rfl
@[simp] theorem State.addForwards_readByte (es : List FwdEntry) (g : Region) (x : Nat) : (s.addForwards es).readByte g x = s.readByte g x := rfl
@[simp] theorem State.addForwards_ifetch (es : List FwdEntry) (x : Word) : (s.addForwards es).ifetch x = s.ifetch x := rfl
@[simp] theorem State.addForwards_fwdOn (es : List FwdEntry) : (s.addForwards es).fwdOn = s.fwdOn := rfl
@[simp] theorem State.addForwards_predOn (es : List FwdEntry) : (s.addForwards es).predOn = s.predOn := rfl
@[simp] theorem State.addForwards_halted (es : List FwdEntry) : (s.addForwards es).halted = s.halted := rfl

@[simp] theorem State.flushTo_readReg (t : Word) (r : Reg) : (s.flushTo t).readReg r = s.readReg r := rfl
@[simp] theorem State.flushTo_space (t : Word) (g : Region) : (s.flushTo t).space g = s.space g := rfl
@[simp] theorem State.flushTo_readByte (t : Word) (g : Region) (x : Nat) : (s.flushTo t).readByte g x = s.readByte g x := rfl
@[simp] theorem State.flushTo_ifetch (t : Word) (x : Word) : (s.flushTo t).ifetch x = s.ifetch x := rfl
@[simp] theorem State.flushTo_fwdOn (t : Word) : (s.flushTo t).fwdOn = s.fwdOn := rfl
@[simp] theorem State.flushTo_predOn (t : Word) : (s.flushTo t).predOn = s.predOn := rfl
@[simp] theorem State.flushTo_halted (t : Word) : (s.flushTo t).halted = s.halted := rfl

@[simp] theorem State.updatePredictor_readReg (i : Rec) (r : Reg) : (s.updatePredictor i).readReg r = s.readReg r := rfl
@[simp] theorem State.updatePredictor_space (i : Rec) (g : Region) : (s.updatePredictor i).space g = s.space g := rfl
@[simp] theorem State.updatePredictor_readByte (i : Rec) (g : Region) (x : Nat) : (s.updatePredictor i).readByte g x = s.readByte g x := rfl
@[simp] theorem State.updatePredictor_ifetch (i : Rec) (x : Word) : (s.updatePredictor i).ifetch x = s.ifetch x := rfl
@[simp] theorem State.updatePredictor_fwdOn (i : Rec) : (s.updatePredictor i).fwdOn = s.fwdOn := rfl
@[simp] theorem State.updatePredictor_predOn (i : Rec) : (s.updatePredictor i).predOn = s.predOn := rfl
@[simp] theorem State.updatePredictor_halted (i : Rec) : (s.updatePredictor i).halted = s.halted := rfl

@[simp] theorem State.setPhase_readReg (p : Phase) (r : Reg) : (s.setPhase p).readReg r = s.readReg r := rfl
@[simp] theorem State.setPhase_space (p : Phase) (g : Region) : (s.setPhase p).space g = s.space g := rfl
@[simp] theorem State.setPhase_readByte (p : Phase) (g : Region) (x : Nat) : (s.setPhase p).readByte g x = s.readByte g x := rfl
@[simp] theorem State.setPhase_ifetch (p : Phase) (x : Word) : (s.setPhase p).ifetch x = s.ifetch x := rfl
@[simp] theorem State.setPhase_fwdOn (p : Phase) : (s.setPhase p).fwdOn = s.fwdOn := rfl
@[simp] theorem State.setPhase_predOn (p : Phase) : (s.setPhase p).predOn = s.predOn := rfl
@[simp] theorem State.setPhase_halted (p : Phase) : (s.setPhase p).halted = s.halted := rfl

@[simp] theorem State.emptyF_readReg (r : Reg) : (s.emptyF).readReg r = s.readReg r := rfl
@[simp] theorem State.emptyF_space (g : Region) : (s.emptyF).space g = s.space g := rfl
@[simp] theorem State.emptyF_readByte (g : Region) (x : Nat) : (s.emptyF).readByte g x = s.readByte g x := rfl
@[simp] theorem State.emptyF_ifetch (x : Word) : (s.emptyF).ifetch x = s.ifetch x := rfl
@[simp] theorem State.emptyF_fwdOn : (s.emptyF).fwdOn = s.fwdOn := rfl
@[simp] theorem State.emptyF_predOn : (s.emptyF).predOn = s.predOn := rfl
@[simp] theorem State.emptyF_halted : (s.emptyF).halted = s.halted := rfl

@[simp] theorem State.putD_readReg (i : Rec) (r : Reg) : (s.putD i).readReg r = s.readReg r := rfl
@[simp] theorem State.putD_space (i : Rec) (g : Region) : (s.putD i).space g = s.space g := rfl
@[simp] theorem State.putD_readByte (i : Rec) (g : Region) (x : Nat) : (s.putD i).readByte g x = s.readByte g x := rfl
@[simp] theorem State.putD_ifetch (i : Rec) (x : Word) : (s.putD i).ifetch x = s.ifetch x := rfl
@[simp] theorem State.putD_fwdOn (i : Rec) : (s.putD i).fwdOn = s.fwdOn := rfl
@[simp] theorem State.putD_predOn (i : Rec) : (s.putD i).predOn = s.predOn := rfl
@[simp] theorem State.putD_halted (i : Rec) : (s.putD i).halted = s.halted := rfl

@[simp] theorem State.moveToX_readReg (i : Rec) (r : Reg) : (s.moveToX i).readReg r = s.readReg r := rfl
@[simp] theorem State.moveToX_space (i : Rec) (g : Region) : (s.moveToX i).space g = s.space g := rfl
@[simp] theorem State.moveToX_readByte (i : Rec) (g : Region) (x : Nat) : (s.moveToX i).readByte g x = s.readByte g x := rfl
@[simp] theorem State.moveToX_ifetch (i : Rec) (x : Word) : (s.moveToX i).ifetch x = s.ifetch x := rfl
@[simp] theorem State.moveToX_fwdOn (i : Rec) : (s.moveToX i).fwdOn = s.fwdOn := rfl
@[simp] theorem State.moveToX_predOn (i : Rec) : (s.moveToX i).predOn = s.predOn := rfl
@[simp] theorem State.moveToX_halted (i : Rec) : (s.moveToX i).halted = s.halted := rfl

@[simp] theorem State.moveToW_readReg (i : Rec) (r : Reg) : (s.moveToW i).readReg r = s.readReg r := rfl
@[simp] theorem State.moveToW_space (i : Rec) (g : Region) : (s.moveToW i).space g = s.space g := rfl
@[simp] theorem State.moveToW_readByte (i : Rec) (g : Region) (x : Nat) : (s.moveToW i).readByte g x = s.readByte g x := rfl
@[simp] theorem State.moveToW_ifetch (i : Rec) (x : Word) : (s.moveToW i).ifetch x = s.ifetch x := rfl
@[simp] theorem State.moveToW_fwdOn (i : Rec) : (s.moveToW i).fwdOn = s.fwdOn := rfl
@[simp] theorem State.moveToW_predOn (i : Rec) : (s.moveToW i).predOn = s.predOn := rfl
@[simp] theorem State.moveToW_halted (i : Rec) : (s.moveToW i).halted = s.halted := rfl

@[simp] theorem State.emptyW_readReg (r : Reg) : (s.emptyW).readReg r = s.readReg r := rfl
@[simp] theorem State.emptyW_space (g : Region) : (s.emptyW).space g = s.space g := rfl
@[simp] theorem State.emptyW_readByte (g : Region) (x : Nat) : (s.emptyW).readByte g x = s.readByte g x := rfl
@[simp] theorem State.emptyW_ifetch (x : Word) : (s.emptyW).ifetch x = s.ifetch x := rfl
@[simp] theorem State.emptyW_fwdOn : (s.emptyW).fwdOn = s.fwdOn := rfl
@[simp] theorem State.emptyW_predOn : (s.emptyW).predOn = s.predOn := rfl
@[simp] theorem State.emptyW_halted : (s.emptyW).halted = s.halted := rfl

@[simp] theorem State.emptyS_readReg (r : Reg) : (s.emptyS).readReg r = s.readReg r := rfl
@[simp] theorem State.emptyS_space (g : Region) : (s.emptyS).space g = s.space g := rfl
@[simp] theorem State.emptyS_readByte (g : Region) (x : Nat) : (s.emptyS).readByte g x = s.readByte g x := rfl
@[simp] theorem State.emptyS_ifetch (x : Word) : (s.emptyS).ifetch x = s.ifetch x := rfl
@[simp] theorem State.emptyS_fwdOn : (s.emptyS).fwdOn = s.fwdOn := rfl
@[simp] theorem State.emptyS_predOn : (s.emptyS).predOn = s.predOn := rfl
@[simp] theorem State.emptyS_halted : (s.emptyS).halted = s.halted := rfl

@[simp] theorem readOperands_readReg (i : Instr) (r : Reg) : (readOperands i s).readReg r = s.readReg r := rfl
@[simp] theorem readOperands_space (i : Instr) (g : Region) : (readOperands i s).space g = s.space g := rfl
@[simp] theorem readOperands_readByte (i : Instr) (g : Region) (x : Nat) : (readOperands i s).readByte g x = s.readByte g x := rfl
@[simp] theorem readOperands_ifetch (i : Instr) (x : Word) : (readOperands i s).ifetch x = s.ifetch x := rfl
@[simp] theorem readOperands_fwdOn (i : Instr) : (readOperands i s).fwdOn = s.fwdOn := rfl
@[simp] theorem readOperands_predOn (i : Instr) : (readOperands i s).predOn = s.predOn := rfl
@[simp] theorem readOperands_halted (i : Instr) : (readOperands i s).halted = s.halted := rfl

@[simp] theorem enterD_readReg (i : Rec) (r : Reg) : (enterD i s).readReg r = s.readReg r := rfl
@[simp] theorem enterD_space (i : Rec) (g : Region) : (enterD i s).space g = s.space g := rfl
@[simp] theorem enterD_readByte (i : Rec) (g : Region) (x : Nat) : (enterD i s).readByte g x = s.readByte g x := rfl
@[simp] theorem enterD_ifetch (i : Rec) (x : Word) : (enterD i s).ifetch x = s.ifetch x := rfl
@[simp] theorem enterD_fwdOn (i : Rec) : (enterD i s).fwdOn = s.fwdOn := rfl
@[simp] theorem enterD_predOn (i : Rec) : (enterD i s).predOn = s.predOn := rfl
@[simp] theorem enterD_halted (i : Rec) : (enterD i s).halted = s.halted := rfl

@[simp] theorem park_readReg (i : Rec) (n : Nat) (r : Reg) : (park i n s).readReg r = s.readReg r := rfl
@[simp] theorem park_space (i : Rec) (n : Nat) (g : Region) : (park i n s).space g = s.space g := rfl
@[simp] theorem park_readByte (i : Rec) (n : Nat) (g : Region) (x : Nat) : (park i n s).readByte g x = s.readByte g x := rfl
@[simp] theorem park_ifetch (i : Rec) (n : Nat) (x : Word) : (park i n s).ifetch x = s.ifetch x := rfl
@[simp] theorem park_fwdOn (i : Rec) (n : Nat) : (park i n s).fwdOn = s.fwdOn := rfl
@[simp] theorem park_predOn (i : Rec) (n : Nat) : (park i n s).predOn = s.predOn := rfl
@[simp] theorem park_halted (i : Rec) (n : Nat) : (park i n s).halted = s.halted := rfl

@[simp] theorem fetchWord_readReg (w : Word) (r : Reg) : (fetchWord w s).readReg r = s.readReg r := rfl
@[simp] theorem fetchWord_space (w : Word) (g : Region) : (fetchWord w s).space g = s.space g := rfl
@[simp] theorem fetchWord_readByte (w : Word) (g : Region) (x : Nat) : (fetchWord w s).readByte g x = s.readByte g x := rfl
@[simp] theorem fetchWord_ifetch (w : Word) (x : Word) : (fetchWord w s).ifetch x = s.ifetch x := rfl
@[simp] theorem fetchWord_fwdOn (w : Word) : (fetchWord w s).fwdOn = s.fwdOn := rfl
@[simp] theorem fetchWord_predOn (w : Word) : (fetchWord w s).predOn = s.predOn := rfl
@[simp] theorem fetchWord_halted (w : Word) : (fetchWord w s).halted = s.halted := rfl

@[simp] theorem shiftWindow_readReg (r : Reg) : (shiftWindow s).readReg r = s.readReg r := rfl
@[simp] theorem shiftWindow_space (g : Region) : (shiftWindow s).space g = s.space g := rfl
@[simp] theorem shiftWindow_readByte (g : Region) (x : Nat) : (shiftWindow s).readByte g x = s.readByte g x := rfl
@[simp] theorem shiftWindow_ifetch (x : Word) : (shiftWindow s).ifetch x = s.ifetch x := rfl
@[simp] theorem shiftWindow_fwdOn : (shiftWindow s).fwdOn = s.fwdOn := rfl
@[simp] theorem shiftWindow_predOn : (shiftWindow s).predOn = s.predOn := rfl
@[simp] theorem shiftWindow_halted : (shiftWindow s).halted = s.halted := rfl

@[simp] theorem decrementBubble_readReg (r : Reg) : (decrementBubble s).readReg r = s.readReg r := rfl
@[simp] theorem decrementBubble_space (g : Region) : (decrementBubble s).space g = s.space g := rfl
@[simp] theorem decrementBubble_readByte (g : Region) (x : Nat) : (decrementBubble s).readByte g x = s.readByte g x := rfl
@[simp] theorem decrementBubble_ifetch (x : Word) : (decrementBubble s).ifetch x = s.ifetch x := rfl
@[simp] theorem decrementBubble_fwdOn : (decrementBubble s).fwdOn = s.fwdOn := rfl
@[simp] theorem decrementBubble_predOn : (decrementBubble s).predOn = s.predOn := rfl
@[simp] theorem decrementBubble_halted : (decrementBubble s).halted = s.halted := rfl

@[simp] theorem executeStage_readReg (i : Rec) (r : Reg) : ((executeStage i s).2).readReg r = s.readReg r :=
  State.readReg_congr (by simp) r
@[simp] theorem executeStage_space (i : Rec) (g : Region) : ((executeStage i s).2).space g = s.space g :=
  by cases g <;> simp [State.space]
@[simp] theorem executeStage_readByte (i : Rec) (g : Region) (x : Nat) : ((executeStage i s).2).readByte g x = s.readByte g x :=
  by simp [State.readByte]
@[simp] theorem executeStage_ifetch (i : Rec) (x : Word) : ((executeStage i s).2).ifetch x = s.ifetch x :=
  by simp [State.ifetch]
@[simp] theorem executeStage_fwdOn (i : Rec) : ((executeStage i s).2).fwdOn = s.fwdOn :=
  by simp [State.fwdOn]
@[simp] theorem executeStage_predOn (i : Rec) : ((executeStage i s).2).predOn = s.predOn :=
  by simp [State.predOn]
@[simp] theorem executeStage_halted (i : Rec) : ((executeStage i s).2).halted = s.halted :=
  by simp [State.halted]
@[simp] theorem memoryStage_readReg (i : Rec) (r : Reg) : (memoryStage i s).readReg r = s.readReg r :=
  State.readReg_congr (by simp) r
@[simp] theorem memoryStage_ifetch (i : Rec) (x : Word) : (memoryStage i s).ifetch x = s.ifetch x :=
  by simp [State.ifetch]
@[simp] theorem memoryStage_fwdOn (i : Rec) : (memoryStage i s).fwdOn = s.fwdOn :=
  by simp [State.fwdOn]
@[simp] theorem memoryStage_predOn (i : Rec) : (memoryStage i s).predOn = s.predOn :=
  by simp [State.predOn]
@[simp] theorem memoryStage_halted (i : Rec) : (memoryStage i s).halted = s.halted :=
  by simp [State.halted]
@[simp] theorem memoryPass_readReg (r : Reg) : (memoryPass s).readReg r = s.readReg r :=
  rfl
@[simp] theorem memoryPass_space (g : Region) : (memoryPass s).space g = s.space g :=
  rfl
@[simp] theorem memoryPass_readByte (g : Region) (x : Nat) : (memoryPass s).readByte g x = s.readByte g x :=
  rfl
@[simp] theorem memoryPass_ifetch (x : Word) : (memoryPass s).ifetch x = s.ifetch x :=
  rfl
@[simp] theorem memoryPass_fwdOn : (memoryPass s).fwdOn = s.fwdOn :=
  rfl
@[simp] theorem memoryPass_predOn : (memoryPass s).predOn = s.predOn :=
  rfl
@[simp] theorem memoryPass_halted : (memoryPass s).halted = s.halted :=
  rfl
@[simp] theorem resolveControl_readReg (i : Rec) (r : Reg) : ((resolveControl i s).1).readReg r = s.readReg r :=
  State.readReg_congr (by simp) r
@[simp] theorem resolveControl_space (i : Rec) (g : Region) : ((resolveControl i s).1).space g = s.space g :=
  by cases g <;> simp [State.space]
@[simp] theorem resolveControl_readByte (i : Rec) (g : Region) (x : Nat) : ((resolveControl i s).1).readByte g x = s.readByte g x :=
  by simp [State.readByte]
@[simp] theorem resolveControl_ifetch (i : Rec) (x : Word) : ((resolveControl i s).1).ifetch x = s.ifetch x :=
  by simp [State.ifetch]
@[simp] theorem resolveControl_fwdOn (i : Rec) : ((resolveControl i s).1).fwdOn = s.fwdOn :=
  by simp [State.fwdOn]
@[simp] theorem resolveControl_predOn (i : Rec) : ((resolveControl i s).1).predOn = s.predOn :=
  by simp [State.predOn]
@[simp] theorem resolveControl_halted (i : Rec) : ((resolveControl i s).1).halted = s.halted :=
  by simp [State.halted]
@[simp] theorem writeback_space (i : Rec) (g : Region) : (writeback i s).space g = s.space g :=
  by cases g <;> simp [State.space]
@[simp] theorem writeback_readByte (i : Rec) (g : Region) (x : Nat) : (writeback i s).readByte g x = s.readByte g x :=
  by simp [State.readByte]
@[simp] theorem writeback_ifetch (i : Rec) (x : Word) : (writeback i s).ifetch x = s.ifetch x :=
  by simp [State.ifetch]
@[simp] theorem writeback_fwdOn (i : Rec) : (writeback i s).fwdOn = s.fwdOn :=
  by simp [State.fwdOn]
@[simp] theorem writeback_predOn (i : Rec) : (writeback i s).predOn = s.predOn :=
  by simp [State.predOn]
@[simp] theorem writeback_halted (i : Rec) : (writeback i s).halted = s.halted :=
  by simp [State.halted]
@[simp] theorem jumpAtWriteback_readReg (i : Rec) (r : Reg) : (jumpAtWriteback i s).readReg r = s.readReg r :=
  State.readReg_congr (by simp) r
@[simp] theorem jumpAtWriteback_space (i : Rec) (g : Region) : (jumpAtWriteback i s).space g = s.space g :=
  by cases g <;> simp [State.space]
@[simp] theorem jumpAtWriteback_readByte (i : Rec) (g : Region) (x : Nat) : (jumpAtWriteback i s).readByte g x = s.readByte g x :=
  by simp [State.readByte]
@[simp] theorem jumpAtWriteback_ifetch (i : Rec) (x : Word) : (jumpAtWriteback i s).ifetch x = s.ifetch x :=
  by simp [State.ifetch]
@[simp] theorem jumpAtWriteback_fwdOn (i : Rec) : (jumpAtWriteback i s).fwdOn = s.fwdOn :=
  by simp [State.fwdOn]
@[simp] theorem jumpAtWriteback_predOn (i : Rec) : (jumpAtWriteback i s).predOn = s.predOn :=
  by simp [State.predOn]
@[simp] theorem jumpAtWriteback_halted (i : Rec) : (jumpAtWriteback i s).halted = s.halted :=
  by simp [State.halted]
@[simp] theorem branchAtExecute_readReg (i : Rec) (r : Reg) : (branchAtExecute i s).readReg r = s.readReg r :=
  State.readReg_congr (by simp) r
@[simp] theorem branchAtExecute_space (i : Rec) (g : Region) : (branchAtExecute i s).space g = s.space g :=
  by cases g <;> simp [State.space]
@[simp] theorem branchAtExecute_readByte (i : Rec) (g : Region) (x : Nat) : (branchAtExecute i s).readByte g x = s.readByte g x :=
  by simp [State.readByte]
@[simp] theorem branchAtExecute_ifetch (i : Rec) (x : Word) : (branchAtExecute i s).ifetch x = s.ifetch x :=
  by simp [State.ifetch]
@[simp] theorem branchAtExecute_fwdOn (i : Rec) : (branchAtExecute i s).fwdOn = s.fwdOn :=
  by simp [State.fwdOn]
@[simp] theorem branchAtExecute_predOn (i : Rec) : (branchAtExecute i s).predOn = s.predOn :=
  by simp [State.predOn]
@[simp] theorem branchAtExecute_halted (i : Rec) : (branchAtExecute i s).halted = s.halted :=
  by simp [State.halted]
@[simp] theorem predictAtDecode_readReg (i : Rec) (r : Reg) : ((predictAtDecode i s).2).readReg r = s.readReg r :=
  State.readReg_congr (by simp) r
@[simp] theorem predictAtDecode_space (i : Rec) (g : Region) : ((predictAtDecode i s).2).space g = s.space g :=
  by cases g <;> simp [State.space]
@[simp] theorem predictAtDecode_readByte (i : Rec) (g : Region) (x : Nat) : ((predictAtDecode i s).2).readByte g x = s.readByte g x :=
  by simp [State.readByte]
@[simp] theorem predictAtDecode_ifetch (i : Rec) (x : Word) : ((predictAtDecode i s).2).ifetch x = s.ifetch x :=
  by simp [State.ifetch]
@[simp] theorem predictAtDecode_fwdOn (i : Rec) : ((predictAtDecode i s).2).fwdOn = s.fwdOn :=
  by simp [State.fwdOn]
@[simp] theorem predictAtDecode_predOn (i : Rec) : ((predictAtDecode i s).2).predOn = s.predOn :=
  by simp [State.predOn]
@[simp] theorem predictAtDecode_halted (i : Rec) : ((predictAtDecode i s).2).halted = s.halted :=
  by simp [State.halted]
@[simp] theorem applyForwards_readReg (r : Reg) : (applyForwards s).readReg r = s.readReg r :=
  State.readReg_congr (by simp) r
@[simp] theorem applyForwards_space (g : Region) : (applyForwards s).space g = s.space g :=
  by cases g <;> simp [State.space]
@[simp] theorem applyForwards_readByte (g : Region) (x : Nat) : (applyForwards s).readByte g x = s.readByte g x :=
  by simp [State.readByte]
@[simp] theorem applyForwards_ifetch (x : Word) : (applyForwards s).ifetch x = s.ifetch x :=
  by simp [State.ifetch]
@[simp] theorem applyForwards_fwdOn : (applyForwards s).fwdOn = s.fwdOn :=
  by simp [State.fwdOn]
@[simp] theorem applyForwards_predOn : (applyForwards s).predOn = s.predOn :=
  by simp [State.predOn]
@[simp] theorem applyForwards_halted : (applyForwards s).halted = s.halted :=
  by simp [State.halted]

/-! `setSpace` -/

@[simp] theorem State.setSpace_readReg (q : Region) (m : Memory) (r : Reg) :
    (s.setSpace q m).readReg r = s.readReg r := State.readReg_congr (by simp) r
@[simp] theorem State.setSpace_ifetch (q : Region) (m : Memory) (a : Word) :
    (s.setSpace q m).ifetch a = s.ifetch a := by simp [State.ifetch]
@[simp] theorem State.setSpace_fwdOn (q : Region) (m : Memory) : (s.setSpace q m).fwdOn = s.fwdOn := by
  simp [State.fwdOn]
@[simp] theorem State.setSpace_predOn (q : Region) (m : Memory) : (s.setSpace q m).predOn = s.predOn := by
  simp [State.predOn]
@[simp] theorem State.setSpace_halted (q : Region) (m : Memory) : (s.setSpace q m).halted = s.halted := by
  simp [State.halted]

/-- The register file after writeback: Y in the effective destination, every other register as before
(R203). -/
theorem writeback_readReg (i : Rec) (r : Reg) :
    (writeback i s).readReg r = if i.instr.effDest = some r then s.bufY else s.readReg r := by
  rw [writeback_eq]
  cases h : i.instr.effDest with
  | none => simp
  | some q =>
    have hq : q ≠ 0#5 := by
      unfold Instr.effDest at h
      split at h <;> simp at h
      exact h.2 ▸ h.1
    simp [State.readReg_writeReg, hq, eq_comm]

/-- Slot 0 of the register file survives writeback (R21). -/
@[simp] theorem writeback_slot0 (i : Rec) : (writeback i s).regs[0] = s.regs[0] := by
  rw [writeback_eq]
  split
  · rfl
  · exact State.writeReg_slot0 _ _ _

end Sys2Proof.Machine
end

