-- ==== Sys2Proof/Laws/RunAlone.lean ====
section
/-! SUPPORT. An instruction run alone, by its stages; and the result of each shape of instruction (R201, R222
to R226). -/

namespace Sys2Proof.Machine

/-- The state an instruction run alone leaves, by the stage procedures. -/
theorem exec_stages (i : Instr) (s : State) :
    let r := executeStage (newRec i s.pc (s.seqCtr + 1))
      (readOperands i ((s.setPc (s.pc + 4#32)).countDecode))
    exec i s = .next (jumpAtWriteback r.1
      ((writeback r.1 (memoryStage r.1 (branchAtExecute r.1 r.2)).beginStep).emit (.wb r.1))) := by
  cases i <;> rfl

/-- exec always answers a next state: no meaning stops. -/
theorem exec_next (i : Instr) (s : State) : ∃ t, exec i s = .next t := ⟨_, exec_stages i s⟩

/-- The execute stage reads A, B, the parameters and, where it does not write M, M (R201). -/
theorem executeStage_congr (r : Rec) (s t : State) (hA : s.bufA = t.bufA) (hB : s.bufB = t.bufB)
    (hM : s.bufM = t.bufM) (hp : s.params = t.params) :
    (executeStage r s).1 = (executeStage r t).1 ∧
      (executeStage r s).2.bufZ = (executeStage r t).2.bufZ ∧
      (executeStage r s).2.bufM = (executeStage r t).2.bufM := by
  obtain ⟨i, a, q, p, tk⟩ := r
  cases i
  case div | rem =>
    by_cases h : t.bufB = 0#32 <;>
      simp [executeStage, executeDiv, executeRem, executeDivide, hA, hB, hM, hp, h]
  all_goals
    simp [executeStage, executeAdd, executeSub, executeSll, executeSlt, executeXor, executeSrl, executeSra,
      executeOr, executeAnd, executeMul, executeAddi, executeAndi, executeOri, executeLb, executeLh, executeLw,
      executeLd, executeSb, executeSh, executeSw, executeSd, executeBeq, executeBne, executeBlt, executeBge,
      executeLui, executeAuipc, executeJal, executeJalr, executeAlu, executeLoad, executeStore, executeBranch,
      State.loadAddr, State.storeAddr, State.jalrTarget, hA, hB, hM]
/-- The memory stage reads Z, M, the two spaces and the parameters (R201). -/
theorem memoryStage_congr (r : Rec) (s t : State) (hZ : s.bufZ = t.bufZ) (hM : s.bufM = t.bufM)
    (hd : s.data = t.data) (hk : s.stack = t.stack) (hp : s.params = t.params) :
    (memoryStage r s).bufY = (memoryStage r t).bufY ∧
      (memoryStage r s).data = (memoryStage r t).data ∧
      (memoryStage r s).stack = (memoryStage r t).stack := by
  have hs : ∀ g, s.space g = t.space g := by intro g; cases g <;> assumption
  have hload : ∀ n (ext : BitVec (8 * n) → Word),
      (memoryLoad n ext s).bufY = (memoryLoad n ext t).bufY ∧
      (memoryLoad n ext s).data = (memoryLoad n ext t).data ∧
      (memoryLoad n ext s).stack = (memoryLoad n ext t).stack := by
    intro n ext
    have : s.memRead s.bufZ n = t.memRead t.bufZ n := by simp [State.memRead, hZ, hp, hs]
    unfold memoryLoad
    rw [this]
    split <;> simp [hd, hk]
  have hstore : ∀ n (val : Word → BitVec (8 * n)),
      (memoryStore n val s).bufY = (memoryStore n val t).bufY ∧
      (memoryStore n val s).data = (memoryStore n val t).data ∧
      (memoryStore n val s).stack = (memoryStore n val t).stack := by
    intro n val
    obtain ⟨h1, h2⟩ | ⟨g, h1, h2⟩ := State.memWrite_cases s s.bufZ n (val s.bufM)
    · obtain ⟨k1, k2⟩ | ⟨q, k1, k2⟩ := State.memWrite_cases t t.bufZ n (val t.bufM)
      · simp only [memoryStore, h2, k2]
        simp [hd, hk, hZ]
      · simp [← hp, ← hZ, h1] at k1
    · obtain ⟨k1, k2⟩ | ⟨q, k1, k2⟩ := State.memWrite_cases t t.bufZ n (val t.bufM)
      · simp [← hp, ← hZ, h1] at k1
      · rw [← hp, ← hZ, h1] at k1
        cases k1
        simp only [memoryStore, h2, k2]
        cases g <;> simp [hd, hk, hZ, hM, hs, State.setSpace]
  obtain ⟨i, a, q, p, tk⟩ := r
  cases i
  case lb | lh | lw | ld => exact hload _ _
  case sb | sh | sw | sd => exact hstore _ _
  all_goals simp [memoryStage, memoryPass, hZ, hd, hk]

/-- Only a branch's execute stage changes the record (R201). -/
theorem executeStage_nonbranch (r : Rec) (s : State) (h : r.instr.isBranch = false) :
    (executeStage r s).1 = r := by
  obtain ⟨i, a, q, p, tk⟩ := r
  cases i <;> first | rfl | simp [Instr.isBranch, Instr.opcode] at h

/-- The error registers and the trace after the execute stage: as before, or one division by zero more (R304). -/
theorem executeStage_log (r : Rec) (s : State) :
    ((executeStage r s).2.errSeen = s.errSeen ∧ (executeStage r s).2.errCode = s.errCode ∧
      (executeStage r s).2.errInfo = s.errInfo ∧ (executeStage r s).2.trace = s.trace) ∨
    ((∃ rd a b, r.instr = .div rd a b ∨ r.instr = .rem rd a b) ∧ s.bufB = 0#32 ∧
      (executeStage r s).2.errSeen = true ∧ (executeStage r s).2.errCode = ErrCode.divZero.num ∧
      (executeStage r s).2.errInfo = r.fpc ∧
      (executeStage r s).2.trace = s.trace ++ [.err .divZero r.fpc]) := by
  obtain ⟨i, a, q, p, tk⟩ := r
  cases i
  case div | rem =>
    by_cases h : s.bufB = 0#32 <;>
      simp [executeStage, executeDiv, executeRem, executeDivide, h]
  all_goals exact .inl ⟨rfl, rfl, rfl, rfl⟩

/-- A load's memory stage logs exactly an out-of-range access (R68, R150). -/
theorem memoryLoad_log (n : Nat) (ext : BitVec (8 * n) → Word) (s : State) :
    (Params.accessRegion s.params s.bufZ n ≠ none ∧ (memoryLoad n ext s).errSeen = s.errSeen ∧
      (memoryLoad n ext s).errCode = s.errCode ∧ (memoryLoad n ext s).errInfo = s.errInfo ∧
      (memoryLoad n ext s).trace = s.trace) ∨
    (Params.accessRegion s.params s.bufZ n = none ∧ (memoryLoad n ext s).errSeen = true ∧
      (memoryLoad n ext s).errCode = ErrCode.loadRange.num ∧ (memoryLoad n ext s).errInfo = s.bufZ ∧
      (memoryLoad n ext s).trace = s.trace ++ [.err .loadRange s.bufZ]) := by
  obtain ⟨h, hr⟩ | ⟨g, h, hr⟩ := State.memRead_cases s s.bufZ n
  · simp only [memoryLoad, hr]
    exact .inr ⟨h, rfl, rfl, rfl, rfl⟩
  · simp only [memoryLoad, hr]
    exact .inl ⟨by simp [h], rfl, rfl, rfl, rfl⟩

/-- A store's memory stage logs exactly an out-of-range access (R69, R155). -/
theorem memoryStore_log (n : Nat) (val : Word → BitVec (8 * n)) (s : State) :
    (Params.accessRegion s.params s.bufZ n ≠ none ∧ (memoryStore n val s).errSeen = s.errSeen ∧
      (memoryStore n val s).errCode = s.errCode ∧ (memoryStore n val s).errInfo = s.errInfo ∧
      (memoryStore n val s).trace = s.trace) ∨
    (Params.accessRegion s.params s.bufZ n = none ∧ (memoryStore n val s).errSeen = true ∧
      (memoryStore n val s).errCode = ErrCode.storeRange.num ∧
      (memoryStore n val s).errInfo = s.bufZ ∧
      (memoryStore n val s).trace = s.trace ++ [.err .storeRange s.bufZ]) := by
  obtain ⟨h, hw⟩ | ⟨g, h, hw⟩ := State.memWrite_cases s s.bufZ n (val s.bufM)
  · simp only [memoryStore, hw]
    exact .inr ⟨h, rfl, rfl, rfl, rfl⟩
  · simp only [memoryStore, hw]
    refine .inl ⟨by simp [h], ?_⟩
    cases g <;> exact ⟨rfl, rfl, rfl, rfl⟩

/-- The error registers and the trace after the memory stage: as before, or one range error more (R303). -/
theorem memoryStage_log (r : Rec) (s : State) :
    ((memoryStage r s).errSeen = s.errSeen ∧ (memoryStage r s).errCode = s.errCode ∧
      (memoryStage r s).errInfo = s.errInfo ∧ (memoryStage r s).trace = s.trace) ∨
    ∃ c, (c = .loadRange ∧ r.instr.isLoad = true ∨ c = .storeRange ∧ r.instr.isStore = true) ∧
      (memoryStage r s).errSeen = true ∧ (memoryStage r s).errCode = c.num ∧
      (memoryStage r s).errInfo = s.bufZ ∧ (memoryStage r s).trace = s.trace ++ [.err c s.bufZ] := by
  obtain ⟨i, a, q, p, tk⟩ := r
  cases i
  case lb | lh | lw | ld =>
    exact (memoryLoad_log _ _ s).imp And.right fun h => ⟨.loadRange, .inl ⟨rfl, rfl⟩, h.2⟩
  case sb | sh | sw | sd =>
    exact (memoryStore_log _ _ s).imp And.right fun h => ⟨.storeRange, .inr ⟨rfl, rfl⟩, h.2⟩
  all_goals exact .inl ⟨rfl, rfl, rfl, rfl⟩

/-- The memory stage keeps the canonical form of both spaces. -/
theorem memoryStage_wf (r : Rec) (s : State) (hd : Memory.wf s.data = true)
    (hk : Memory.wf s.stack = true) :
    Memory.wf (memoryStage r s).data = true ∧ Memory.wf (memoryStage r s).stack = true := by
  have hload : ∀ n (ext : BitVec (8 * n) → Word), Memory.wf (memoryLoad n ext s).data = true ∧
      Memory.wf (memoryLoad n ext s).stack = true := fun n ext => by
    obtain ⟨y, a, b, c, d, h⟩ := memoryLoad_shape n ext s
    rw [h]; exact ⟨hd, hk⟩
  have hstore : ∀ n (val : Word → BitVec (8 * n)), Memory.wf (memoryStore n val s).data = true ∧
      Memory.wf (memoryStore n val s).stack = true := fun n val => by
    obtain ⟨_, hw⟩ | ⟨g, _, hw⟩ := State.memWrite_cases s s.bufZ n (val s.bufM)
    · simp only [memoryStore, hw]; exact ⟨hd, hk⟩
    · simp only [memoryStore, hw]
      cases g
      · exact ⟨Memory.writeBytes_wf _ _ _ hd, hk⟩
      · exact ⟨hd, Memory.writeBytes_wf _ _ _ hk⟩
  obtain ⟨i, a, q, p, tk⟩ := r
  cases i
  case lb | lh | lw | ld => exact hload _ _
  case sb | sh | sw | sd => exact hstore _ _
  all_goals exact ⟨hd, hk⟩

end Sys2Proof.Machine
end

