-- ==== Sys2Proof/Laws/Front.lean ====
section
/-! SUPPORT. Sub-steps 1 to 3 of the pipelined step: what they can do, relative to the state before (R203 to R207);
and the reading of a sub-step's answer. -/

namespace Sys2Proof.Machine

open Sys2Proof.Safety

/-! ## Sub-steps -/

/-- The answer goes on in a state with P or ends the step in a state with Q, and is not stuck. -/
def SubStep.Sat (P Q : State → Prop) (x : SubStep) : Prop :=
  match x with
  | .go s => P s
  | .stop s => Q s
  | .stuck _ => False

theorem SubStep.Sat.andThen {P Q R : State → Prop} {x : SubStep} {k : State → SubStep}
    (hx : x.Sat P R) (hk : ∀ s, P s → (k s).Sat Q R) : (x.andThen k).Sat Q R := by
  cases x with
  | go s => exact hk s hx
  | stop s => exact hx
  | stuck f => exact hx

theorem SubStep.Sat.next {P : State → Prop} {x : SubStep} (hx : x.Sat P P) :
    ∃ t, x.outcome = .next t ∧ P t := by
  cases x with
  | go s => exact ⟨s, rfl, hx⟩
  | stop s => exact ⟨s, rfl, hx⟩
  | stuck f => exact hx.elim

/-! ## Writeback -/

/-- Sub-step 1 leaves the state alone, or retires W and then ends the step or goes on (R203, R204). -/
theorem subWriteback_cases (s : State) :
    (s.slotW = none ∧ subWriteback s = .go s) ∨
    ∃ i, s.slotW = some i ∧
      ((((writeback i s).emit (.wb i)).emptyW.drained = true ∧
          subWriteback s = .stop ((writeback i s).emit (.wb i)).emptyW.finish) ∨
        (((writeback i s).emit (.wb i)).emptyW.drained = false ∧
          subWriteback s = .go ((writeback i s).emit (.wb i)).emptyW)) := by
  unfold subWriteback
  cases h : s.slotW with
  | none => exact .inl ⟨rfl, rfl⟩
  | some i =>
    refine .inr ⟨i, rfl, ?_⟩
    cases hd : ((writeback i s).emit (.wb i)).emptyW.drained with
    | true => exact .inl ⟨rfl, by simp [hd]⟩
    | false => exact .inr ⟨rfl, by simp [hd]⟩

theorem State.drained_iff (s : State) : s.drained = true ↔
    s.slotF = none ∧ s.slotD = none ∧ s.slotX = none ∧ s.slotW = none ∧ s.slotS = none ∧
      s.bubble = 0 := by
  simp [State.drained, and_assoc]

/-! ## Sub-steps 1 to 3 together -/

/-- What sub-steps 1 to 3 leave when they go on, relative to the state s before the step: each field that
differs from its value in s (R203 to R207). -/
structure Front (s e : State) (flush : Bool) : Prop where
  regs : ∀ r, e.readReg r = if slotDest s.slotW = some r then s.bufY else s.readReg r
  slot0 : e.regs[0] = s.regs[0]
  bufA : e.bufA = s.bufA
  bufB : e.bufB = s.bufB
  bufZ : e.bufZ = s.slotD.elim s.bufZ fun i => (executeStage i s).2.bufZ
  bufM : e.bufM = s.slotD.elim s.bufM fun i => (executeStage i s).2.bufM
  bufY : e.bufY = s.slotX.elim s.bufY fun i => (memoryStage i s).bufY
  data : e.data = s.slotX.elim s.data fun i => (memoryStage i s).data
  stack : e.stack = s.slotX.elim s.stack fun i => (memoryStage i s).stack
  flush_eq : flush = s.slotD.elim false fun i => (executeStage i s).1.mispredicted || i.instr.isJalr
  pc : e.pc = s.slotD.elim s.pc fun i =>
      if (executeStage i s).1.mispredicted then (executeStage i s).1.outcomePc
      else if i.instr.isJalr then (executeStage i s).2.bufM
      else s.pc
  predBit : e.predBit = s.slotD.elim s.predBit fun i =>
      if (executeStage i s).1.mispredicted && s.predOn then (executeStage i s).1.taken == some true
      else s.predBit
  errSticky : s.errSeen = true → e.errSeen = true
  noError : (s.errSeen = false → s.errCode = 0#8 ∧ s.errInfo = 0#32) →
    e.errSeen = false → e.errCode = 0#8 ∧ e.errInfo = 0#32
  flushed : flush = true → Event.flush ∈ e.trace
  slotF : e.slotF = if flush = true then none else s.slotF
  slotD : e.slotD = none
  slotX : e.slotX = s.slotD.map fun i => (executeStage i s).1
  slotW : e.slotW = s.slotX
  slotS : e.slotS = s.slotS
  win : e.win = s.win
  ftab : e.ftab = s.ftab
  bubble : e.bubble = s.bubble
  phase : e.phase = s.phase
  done : e.done = s.done
  fatal : e.fatal = s.fatal
  fatalCode : e.fatalCode = s.fatalCode
  fatalInfo : e.fatalInfo = s.fatalInfo
  seqCtr : e.seqCtr = s.seqCtr
  params : e.params = s.params
  imem : e.imem = s.imem

theorem subMemory_none (s : State) (h : s.slotX = none) : subMemory s = s := by
  simp [subMemory, h]

theorem subMemory_some (s : State) (i : Rec) (h : s.slotX = some i) :
    subMemory s = ((memoryStage i s).emit (.mem i)).moveToW i := by
  simp [subMemory, h]

theorem subExecute_none (s : State) (h : s.slotD = none) : subExecute s = (s, false) := by
  simp [subExecute, h]

theorem subExecute_some (s : State) (i : Rec) (h : s.slotD = some i) :
    subExecute s = resolveControl (executeStage i s).1
      (((executeStage i s).2.emit (.ex (executeStage i s).1)).moveToX (executeStage i s).1) := by
  simp [subExecute, h]

/-- What sub-steps 1 and 2 leave, relative to the state s before the step (R203, R205). -/
structure AfterMemory (s v : State) : Prop where
  regs : ∀ r, v.readReg r = if slotDest s.slotW = some r then s.bufY else s.readReg r
  slot0 : v.regs[0] = s.regs[0]
  bufY : v.bufY = s.slotX.elim s.bufY fun i => (memoryStage i s).bufY
  data : v.data = s.slotX.elim s.data fun i => (memoryStage i s).data
  stack : v.stack = s.slotX.elim s.stack fun i => (memoryStage i s).stack
  errSticky : s.errSeen = true → v.errSeen = true
  noError : (s.errSeen = false → s.errCode = 0#8 ∧ s.errInfo = 0#32) →
    v.errSeen = false → v.errCode = 0#8 ∧ v.errInfo = 0#32
  slotX : v.slotX = none
  slotW : v.slotW = s.slotX
  slotF : v.slotF = s.slotF
  slotD : v.slotD = s.slotD
  slotS : v.slotS = s.slotS
  pc : v.pc = s.pc
  predBit : v.predBit = s.predBit
  win : v.win = s.win
  ftab : v.ftab = s.ftab
  bubble : v.bubble = s.bubble
  phase : v.phase = s.phase
  done : v.done = s.done
  fatal : v.fatal = s.fatal
  fatalCode : v.fatalCode = s.fatalCode
  fatalInfo : v.fatalInfo = s.fatalInfo
  seqCtr : v.seqCtr = s.seqCtr
  params : v.params = s.params
  imem : v.imem = s.imem
  bufA : v.bufA = s.bufA
  bufB : v.bufB = s.bufB
  bufZ : v.bufZ = s.bufZ
  bufM : v.bufM = s.bufM

theorem subMemory_after (s : State) (R : Vector Word 32) (T : List Event)
    (hr : ∀ r, ({ s with regs := R, slotW := none, trace := T } : State).readReg r =
      if slotDest s.slotW = some r then s.bufY else s.readReg r)
    (h0 : R[0] = s.regs[0]) :
    AfterMemory s (subMemory { s with regs := R, slotW := none, trace := T }) := by
  generalize hw : ({ s with regs := R, slotW := none, trace := T } : State) = w at hr
  cases hX : s.slotX with
  | none =>
    have hXw : w.slotX = none := by rw [← hw]; exact hX
    rw [subMemory_none _ hXw]
    constructor <;> first
      | exact hr
      | (subst hw; first | rfl | exact h0 | simp [hX])
  | some x =>
    have hXw : w.slotX = some x := by rw [← hw]; exact hX
    rw [subMemory_some _ x hXw]
    obtain ⟨hY, hd, hk⟩ := memoryStage_congr x w s (by rw [← hw]) (by rw [← hw]) (by rw [← hw])
      (by rw [← hw]) (by rw [← hw])
    constructor
    case regs => intro r; simp [hr]
    case errSticky =>
      obtain ⟨h1, -, -, -⟩ | ⟨c, -, h1, -, -, -⟩ := memoryStage_log x w
      · simp only [State.moveToW_errSeen, State.emit_errSeen, h1]; subst hw; exact id
      · simp [h1]
    case noError =>
      obtain ⟨h1, h2, h3, -⟩ | ⟨c, -, h1, -, -, -⟩ := memoryStage_log x w
      · simp only [State.moveToW_errSeen, State.emit_errSeen, State.moveToW_errCode, State.emit_errCode,
          State.moveToW_errInfo, State.emit_errInfo, h1, h2, h3]
        subst hw; exact id
      · simp [h1]
    case bufY => simp [hX, hY]
    case data => simp [hX, hd]
    case stack => simp [hX, hk]
    case slotW => simp [hX]
    case slotX => simp
    case slot0 => simp [← hw, h0]
    all_goals simp [← hw]

theorem subExecute_front (s v : State) (h : AfterMemory s v) :
    Front s (subExecute v).1 (subExecute v).2 := by
  cases hD : s.slotD with
  | none =>
    rw [subExecute_none v (h.slotD.trans hD)]
    constructor <;> (try simp only [hD, Option.elim_none]) <;> first
      | exact h.regs | exact h.slot0 | exact h.bufY | exact h.data | exact h.stack | exact h.slotW
      | exact h.slotX
      | exact h.errSticky
      | exact h.noError
      | exact h.slotD.trans hD
      | rfl
      | (simp only [h.slotF]; rfl)
      | simp [h.slotS, h.pc, h.predBit, h.win, h.ftab, h.bubble, h.phase, h.done, h.fatal, h.fatalCode, h.fatalInfo, h.seqCtr, h.params, h.imem, h.bufA, h.bufB, h.bufZ, h.bufM]
  | some i =>
    rw [subExecute_some v i (h.slotD.trans hD)]
    obtain ⟨hr, hZ, hM⟩ := executeStage_congr i v s h.bufA h.bufB h.bufM h.params
    have hp : v.predOn = s.predOn := by simp [State.predOn, h.params]
    rw [hr]
    have hes : s.errSeen = true → (executeStage i v).2.errSeen = true := by
      obtain ⟨h1, -, -, -⟩ | ⟨-, -, h1, -, -, -⟩ := executeStage_log i v
      · rw [h1]; exact h.errSticky
      · exact fun _ => h1
    have hen : (s.errSeen = false → s.errCode = 0#8 ∧ s.errInfo = 0#32) →
        (executeStage i v).2.errSeen = false →
        (executeStage i v).2.errCode = 0#8 ∧ (executeStage i v).2.errInfo = 0#32 := by
      obtain ⟨h1, h2, h3, -⟩ | ⟨-, -, h1, -, -, -⟩ := executeStage_log i v
      · rw [h1, h2, h3]; exact h.noError
      · simp [h1]
    unfold resolveControl
    cases hm : (executeStage i s).1.mispredicted with
    | true =>
      constructor <;> (try simp only [hD, Option.elim_some]) <;>
        simp [hM, hZ, hm, hp, h.regs, h.slot0, h.bufY, h.data, h.stack, h.slotW, h.slotS, h.predBit, h.win, h.ftab, h.bubble, h.phase, h.done, h.fatal, h.fatalCode, h.fatalInfo, h.seqCtr, h.params, h.imem, h.bufA, h.bufB] <;>
          first | exact hes | exact hen
    | false =>
      cases hj : i.instr.isJalr with
      | true =>
        constructor <;> (try simp only [hD, Option.elim_some]) <;>
          simp [hM, hZ, hm, hj, h.regs, h.slot0, h.bufY, h.data, h.stack, h.slotW, h.slotS, h.predBit, h.win, h.ftab, h.bubble, h.phase, h.done, h.fatal, h.fatalCode, h.fatalInfo, h.seqCtr, h.params, h.imem, h.bufA, h.bufB] <;>
          first | exact hes | exact hen
      | false =>
        constructor <;> (try simp only [hD, Option.elim_some]) <;>
          simp [hM, hZ, hm, hj, h.regs, h.slot0, h.bufY, h.data, h.stack, h.slotW, h.slotF, h.slotS, h.pc, h.predBit, h.win, h.ftab, h.bubble, h.phase, h.done, h.fatal, h.fatalCode, h.fatalInfo, h.seqCtr, h.params, h.imem, h.bufA, h.bufB] <;>
          first | exact hes | exact hen

/-- The whole step by its front: it ends with the run complete at the writeback of a drained pipeline, or
sub-steps 4 to 8 run from a state that `Front` describes (R202 to R207). -/
theorem pipelinedStep_cases (s : State) :
    (∃ i, s.slotW = some i ∧ s.slotF = none ∧ s.slotD = none ∧ s.slotX = none ∧ s.slotS = none ∧
      s.bubble = 0 ∧
      pipelinedStep s = .next ((writeback i s.beginStep).emit (.wb i)).emptyW.finish) ∨
    ∃ e flush, Front s e flush ∧ pipelinedStep s = (pipelineBack flush e).outcome := by
  unfold pipelinedStep
  obtain ⟨hW, hs⟩ | ⟨i, hW, ⟨hd, hs⟩ | ⟨hd, hs⟩⟩ := subWriteback_cases s.beginStep
  · refine .inr ⟨(subExecute (subMemory s.beginStep)).1, (subExecute (subMemory s.beginStep)).2, ?_, by rw [hs]; rfl⟩
    rw [State.beginStep_slotW] at hW
    have hw : s.beginStep = { s with regs := s.regs, slotW := none, trace := [] } := by
      rw [← hW]; rfl
    rw [hw]
    refine subExecute_front _ _ (subMemory_after s s.regs [] (fun r => ?_) rfl)
    simp only [hW, slotDest, reduceCtorEq, if_false]
    rfl
  · rw [State.beginStep_slotW] at hW
    rw [State.drained_iff] at hd
    refine .inl ⟨i, hW, ?_⟩
    rw [hs]
    simpa [SubStep.andThen, SubStep.outcome] using hd
  · refine .inr ⟨(subExecute (subMemory ((writeback i s.beginStep).emit (.wb i)).emptyW)).1,
      (subExecute (subMemory ((writeback i s.beginStep).emit (.wb i)).emptyW)).2, ?_, by rw [hs]; rfl⟩
    rw [State.beginStep_slotW] at hW
    have hw : ((writeback i s.beginStep).emit (.wb i)).emptyW =
        { s with regs := (writeback i s).regs, slotW := none, trace := [.wb i] } := by
      simp only [writeback]
      split <;> rfl
    rw [hw]
    refine subExecute_front _ _ (subMemory_after s _ _ (fun r => ?_) (writeback_slot0 s i))
    simp only [hW, slotDest]
    rw [← writeback_readReg s i r]
    exact State.readReg_congr rfl r

end Sys2Proof.Machine
end

