-- ==== Sys2Proof/Laws/Back.lean ====
section
/-! SUPPORT. Sub-steps 4 to 8 of the pipelined step, one equation per case; hazard detection on an aligned
window; and what the forwarding table does to A and B (R208 to R218, R250 to R261). -/

namespace Sys2Proof.Machine

open Sys2Proof.Safety

/-! ## Decode -/

theorem subDecode_none (s : State) (h : s.slotF = none) : subDecode s = .go s := by
  simp [subDecode, h]

theorem subDecode_ok (s : State) (f : Fetched) (i : Instr) (h : s.slotF = some f)
    (hd : decode f.word = .ok i) : subDecode s = decodeInstr i f.fpc s.emptyF := by
  simp [subDecode, h, hd]

theorem subDecode_unknownOpcode (s : State) (f : Fetched) (h : s.slotF = some f)
    (hd : decode f.word = .unknownOpcode) :
    subDecode s = .stop (s.emptyF.raiseFatal .unknownOpcode f.word) := by
  simp [subDecode, h, hd]

theorem subDecode_unknownFunct (s : State) (f : Fetched) (h : s.slotF = some f)
    (hd : decode f.word = .unknownFunct) :
    subDecode s = .stop (s.emptyF.raiseFatal .unknownFunct f.word) := by
  simp [subDecode, h, hd]

/-- The record and the state that decode gives to hazard detection: operands read, pc redirected when
predicted taken (R209). -/
theorem decodeInstr_eq (i : Instr) (a : Word) (s : State) : ∃ r v,
    decodeInstr i a s = placeDecoded r v ∧
    r = { instr := i, fpc := a, seq := s.seqCtr + 1, predTaken := s.predictsTaken i, taken := none } ∧
    v = { s with
      pc := if s.predictsTaken i = true then a + i.imm else s.pc
      bufA := s.operandA i, bufB := s.operandB i, seqCtr := s.seqCtr + 1, trace := v.trace } := by
  refine ⟨_, _, rfl, ?_, ?_⟩ <;>
    cases h : s.predictsTaken i <;>
    simp [predictAtDecode, newRec, h,
      show ((readOperands i s.countDecode).emit _).predictsTaken i = s.predictsTaken i from rfl] <;>
    rfl

/-! ## Fetch -/

theorem subFetch_flush (s : State) : subFetch true s = .go (s.emit .ifWithheld) := rfl

theorem subFetch_bubble (s : State) (h : 0 < s.bubble) : subFetch false s = .go (s.emit .bubble) := by
  simp [subFetch, h]

theorem subFetch_word (s : State) (w : Word) (hb : s.bubble = 0) (h : s.ifetch s.pc = some w) :
    subFetch false s = .go (fetchWord w s) := by
  simp [subFetch, hb, h]

theorem subFetch_nothing (s : State) (hb : s.bubble = 0) (h : s.ifetch s.pc = none) :
    subFetch false s = if s.drained = true then .stop (s.emit .ifNone).finish else .go (s.emit .ifNone) := by
  simp [subFetch, hb, h, State.drained]

/-! ## Promotion -/

theorem subPromote_none (s : State) (h : s.slotS = none) : subPromote s = .go s := by
  simp [subPromote, h]

theorem subPromote_wait (s : State) (i : Rec) (h : s.slotS = some i) (hb : 0 < s.bubble) :
    subPromote s = .go s := by
  have : s.bubble ≠ 0 := by omega
  simp [subPromote, h, this]

/-- The state that promotion gives to the second detection (R216, R258). -/
def promoted (i : Rec) (s : State) : State :=
  (enterD i (readOperands i.instr s).emptyS).emit (.promote i)

theorem subPromote_plain (s : State) (i : Rec) (h : s.slotS = some i) (hb : s.bubble = 0)
    (hf : s.fwdOn = false) : subPromote s = .go (promoted i s) := by
  have : ((enterD i (readOperands i.instr s).emptyS).emit (.promote i)).fwdOn = false := hf
  simp [subPromote, h, hb, this, promoted]

theorem subPromote_forward (s : State) (i : Rec) (n : Nat) (es : List FwdEntry) (h : s.slotS = some i)
    (hb : s.bubble = 0) (hf : s.fwdOn = true) (hz : hazardDetect i (promoted i s) = .need n es) :
    subPromote s = .go ((promoted i s).addForwards es) := by
  have : ((enterD i (readOperands i.instr s).emptyS).emit (.promote i)).fwdOn = true := hf
  unfold promoted at hz
  simp [subPromote, h, hb, this, promoted, hz]

/-! ## Hazard detection when the window is aligned with the slots (R43 item 5) -/

/-- One operand without forwarding (R252). -/
theorem detectStall_aligned (s : State) (src : Option Reg) (h3 : s.win.w3 = slotDest s.slotX)
    (h2 : s.win.w2 = slotDest s.slotW) : ∃ n, detectStall s.win src = .need n [] ∧ n ≤ 2 ∧
      (n = 2 ↔ ∃ r, src = some r ∧ r ≠ 0#5 ∧ slotDest s.slotX = some r) ∧
      (n = 0 ↔ ∀ r, src = some r → r ≠ 0#5 →
        slotDest s.slotX ≠ some r ∧ slotDest s.slotW ≠ some r) := by
  cases src with
  | none => exact ⟨0, rfl, by omega, by simp, by simp⟩
  | some r =>
    by_cases h0 : r = 0#5
    · exact ⟨0, by simp [detectStall, Window.matchSource, h0], by omega, by simp [h0], by simp [h0]⟩
    · by_cases hx : slotDest s.slotX = some r
      · exact ⟨2, by simp [detectStall, Window.matchSource, h0, h3, hx], by omega, by simp [h0, hx],
          by simp [h0, hx]⟩
      · by_cases hw : slotDest s.slotW = some r
        · exact ⟨1, by simp [detectStall, Window.matchSource, h0, h3, h2, hx, hw], by omega,
            by simp [hx], by simp [h0, hw]⟩
        · exact ⟨0, by simp [detectStall, Window.matchSource, h0, h3, h2, hx, hw], by omega,
            by simp [hx], by simp [hx, hw]⟩

/-- The value forwarding gives to one operand that held `old`: X's Z, else W's Y (R260). -/
def forwarded (s : State) (src : Option Reg) (old : Word) : Word :=
  match src with
  | none => old
  | some r =>
    if r = 0#5 then old
    else if slotDest s.slotX = some r then s.bufZ
    else if slotDest s.slotW = some r then s.bufY
    else old

/-- One operand with forwarding: a load in X asks for one stall, and otherwise the entries give the
operand its forwarded value and touch nothing else (R253 to R256, R259). -/
theorem detectForward_aligned (s : State) (i : Rec) (src : Option Reg) (dst : FwdDst)
    (h3 : s.win.w3 = slotDest s.slotX) (h2 : s.win.w2 = slotDest s.slotW) :
    ∃ n es, detectForward s i src dst = .need n es ∧ n ≤ 1 ∧
      (n = 1 ↔ ∃ r p, src = some r ∧ r ≠ 0#5 ∧ s.slotX = some p ∧ slotDest (some p) = some r ∧
        p.instr.isLoad = true) ∧
      (n = 0 → ∀ t : State, t.bufZ = s.bufZ → t.bufY = s.bufY →
        (es.foldl applyEntry t).bufA = (if dst = .A then forwarded s src t.bufA else t.bufA) ∧
        (es.foldl applyEntry t).bufB = (if dst = .B then forwarded s src t.bufB else t.bufB)) := by
  cases src with
  | none => exact ⟨0, [], rfl, by omega, by simp, by simp [forwarded]⟩
  | some r =>
    by_cases h0 : r = 0#5
    · exact ⟨0, [], by simp [detectForward, Window.matchSource, h0], by omega, by simp [h0],
        by simp [forwarded, h0]⟩
    · by_cases hx : slotDest s.slotX = some r
      · cases hX : s.slotX with
        | none => simp [hX, slotDest] at hx
        | some p =>
          rw [hX] at hx
          cases hl : p.instr.isLoad with
          | true =>
            exact ⟨1, [], by simp [detectForward, Window.matchSource, h0, h3, hx, hX, hl], by omega,
              by simp [h0, hx, hl], by simp⟩
          | false =>
            refine ⟨0, [{ pSeq := p.seq, cSeq := i.seq, src := .Z, dst := dst }],
              by simp [detectForward, Window.matchSource, h0, h3, hx, hX, hl], by omega,
              by simp [hl], ?_⟩
            intro _ t hz _
            cases dst <;> simp [applyEntry, State.fwdValue, forwarded, h0, hX, hx, hz]
      · by_cases hw : slotDest s.slotW = some r
        · cases hW : s.slotW with
          | none => simp [hW, slotDest] at hw
          | some p =>
            rw [hW] at hw
            have hx' : ∀ q, s.slotX = some q → slotDest (some q) ≠ some r := by
              intro q hq; rw [hq] at hx; exact hx
            refine ⟨0, [{ pSeq := p.seq, cSeq := i.seq, src := .Y, dst := dst }],
              by simp [detectForward, Window.matchSource, h0, h3, h2, hx, hW, hw], by omega, ?_, ?_⟩
            · constructor
              · intro h; cases h
              · rintro ⟨_, q, h, -, hq, hr, -⟩; cases h; exact absurd hr (hx' q hq)
            · intro _ t _ hy
              cases dst <;> simp [applyEntry, State.fwdValue, forwarded, h0, hx, hW, hw, hy]
        · refine ⟨0, [], by simp [detectForward, Window.matchSource, h0, h3, h2, hx, hw], by omega, ?_,
            by simp [forwarded, hx, hw]⟩
          constructor
          · intro h; cases h
          · rintro ⟨_, q, h, -, hq, hr, -⟩; cases h; rw [hq] at hx; exact absurd hr hx

/-- Detection without forwarding (R252): 2 for a producer in X, else 1 for a producer in W, else 0. -/
theorem hazardDetect_plain (s : State) (i : Rec) (h3 : s.win.w3 = slotDest s.slotX)
    (h2 : s.win.w2 = slotDest s.slotW) (hf : s.fwdOn = false) :
    ∃ n, hazardDetect i s = .need n [] ∧ n ≤ 2 ∧ (n = 2 ↔ DependsOnSlot i.instr s.slotX) ∧
      (n = 0 ↔ ¬DependsOnSlot i.instr s.slotX ∧ ¬DependsOnSlot i.instr s.slotW) := by
  obtain ⟨n, h, hn, hn2, hn0⟩ := detectStall_aligned s i.instr.rs1 h3 h2
  obtain ⟨m, k, hm, hm2, hm0⟩ := detectStall_aligned s i.instr.rs2 h3 h2
  refine ⟨max n m, by simp [hazardDetect, hf, h, k, Detection.merge], by omega, ?_, ?_⟩
  · have : max n m = 2 ↔ n = 2 ∨ m = 2 := by omega
    rw [this, hn2, hm2]
    constructor
    · rintro (⟨r, h1, h2, h3⟩ | ⟨r, h1, h2, h3⟩)
      · exact ⟨r, ⟨h2, .inl h1⟩, h3⟩
      · exact ⟨r, ⟨h2, .inr h1⟩, h3⟩
    · rintro ⟨r, ⟨h2, h1 | h1⟩, h3⟩
      · exact .inl ⟨r, h1, h2, h3⟩
      · exact .inr ⟨r, h1, h2, h3⟩
  · have : max n m = 0 ↔ n = 0 ∧ m = 0 := by omega
    rw [this, hn0, hm0]
    constructor
    · rintro ⟨ha, hb⟩
      refine ⟨?_, ?_⟩ <;> rintro ⟨r, ⟨h2, h1 | h1⟩, h3⟩
      · exact (ha r h1 h2).1 h3
      · exact (hb r h1 h2).1 h3
      · exact (ha r h1 h2).2 h3
      · exact (hb r h1 h2).2 h3
    · rintro ⟨hx, hw⟩
      exact ⟨fun r h1 h2 => ⟨fun h => hx ⟨r, ⟨h2, .inl h1⟩, h⟩, fun h => hw ⟨r, ⟨h2, .inl h1⟩, h⟩⟩,
        fun r h1 h2 => ⟨fun h => hx ⟨r, ⟨h2, .inr h1⟩, h⟩, fun h => hw ⟨r, ⟨h2, .inr h1⟩, h⟩⟩⟩

/-- Detection with forwarding (R253 to R256): 1 for a load in X, else 0 with entries that give both operands
their forwarded values. -/
theorem hazardDetect_forward (s : State) (i : Rec) (h3 : s.win.w3 = slotDest s.slotX)
    (h2 : s.win.w2 = slotDest s.slotW) (hf : s.fwdOn = true) :
    ∃ n es, hazardDetect i s = .need n es ∧ n ≤ 1 ∧
      (n = 1 ↔ DependsOnSlot i.instr s.slotX ∧ ∀ p, s.slotX = some p → p.instr.isLoad = true) ∧
      (n = 0 → ∀ t : State, t.bufZ = s.bufZ → t.bufY = s.bufY →
        (es.foldl applyEntry t).bufA = forwarded s i.instr.rs1 t.bufA ∧
        (es.foldl applyEntry t).bufB = forwarded s i.instr.rs2 t.bufB) := by
  obtain ⟨n, es, h, hn, hn1, hne⟩ := detectForward_aligned s i i.instr.rs1 .A h3 h2
  obtain ⟨m, fs, k, hm, hm1, hme⟩ := detectForward_aligned s i i.instr.rs2 .B h3 h2
  refine ⟨max n m, es ++ fs, by simp [hazardDetect, hf, h, k, Detection.merge], by omega, ?_, ?_⟩
  · have : max n m = 1 ↔ n = 1 ∨ m = 1 := by omega
    rw [this, hn1, hm1]
    constructor
    · rintro (⟨r, p, h1, h2, h3, h4, h5⟩ | ⟨r, p, h1, h2, h3, h4, h5⟩)
      · exact ⟨⟨r, ⟨h2, .inl h1⟩, h3 ▸ h4⟩, fun q hq => by rw [h3] at hq; cases hq; exact h5⟩
      · exact ⟨⟨r, ⟨h2, .inr h1⟩, h3 ▸ h4⟩, fun q hq => by rw [h3] at hq; cases hq; exact h5⟩
    · rintro ⟨⟨r, ⟨h2, h1⟩, h3⟩, hl⟩
      cases hX : s.slotX with
      | none => simp [hX, slotDest] at h3
      | some p =>
        rw [hX] at h3
        rcases h1 with h1 | h1
        · exact .inl ⟨r, p, h1, h2, rfl, h3, hl p hX⟩
        · exact .inr ⟨r, p, h1, h2, rfl, h3, hl p hX⟩
  · intro h0 t hz hy
    rw [List.foldl_append]
    obtain ⟨a, b, tr, hs⟩ := applyEntries_shape es t
    obtain ⟨ha, hb⟩ := hne (by omega) t hz hy
    obtain ⟨ha', hb'⟩ := hme (by omega) (es.foldl applyEntry t) (by rw [hs]; exact hz) (by rw [hs]; exact hy)
    simp at ha hb ha' hb'
    exact ⟨ha'.trans ha, by rw [hb', hb]⟩

/-! ## What sub-steps 4 to 8 leave alone -/

/-- The events of tr name no recoverable error. -/
abbrev NoErr (tr : List Event) : Prop := errorsOf tr = []

theorem errorsOf_append (a b : List Event) : errorsOf (a ++ b) = errorsOf a ++ errorsOf b := by
  simp [errorsOf]

/-- Sub-steps 4 to 8 leave these fields alone and only add events, none of them a recoverable error. -/
structure BackKept (e t : State) : Prop where
  regs : t.regs = e.regs
  bufZ : t.bufZ = e.bufZ
  bufY : t.bufY = e.bufY
  bufM : t.bufM = e.bufM
  slotX : t.slotX = e.slotX
  slotW : t.slotW = e.slotW
  predBit : t.predBit = e.predBit
  phase : t.phase = e.phase
  errSeen : t.errSeen = e.errSeen
  errCode : t.errCode = e.errCode
  errInfo : t.errInfo = e.errInfo
  params : t.params = e.params
  imem : t.imem = e.imem
  data : t.data = e.data
  stack : t.stack = e.stack
  trace : ∃ tr, t.trace = e.trace ++ tr ∧ NoErr tr

theorem BackKept.refl (e : State) : BackKept e e := by
  constructor <;> first | rfl | exact ⟨[], by simp, rfl⟩

theorem BackKept.trans {a b c : State} (h : BackKept a b) (k : BackKept b c) : BackKept a c := by
  obtain ⟨x, hx, nx⟩ := h.trace
  obtain ⟨y, hy, ny⟩ := k.trace
  exact ⟨k.regs.trans h.regs, k.bufZ.trans h.bufZ, k.bufY.trans h.bufY, k.bufM.trans h.bufM,
    k.slotX.trans h.slotX, k.slotW.trans h.slotW, k.predBit.trans h.predBit, k.phase.trans h.phase,
    k.errSeen.trans h.errSeen, k.errCode.trans h.errCode, k.errInfo.trans h.errInfo,
    k.params.trans h.params, k.imem.trans h.imem, k.data.trans h.data, k.stack.trans h.stack,
    ⟨x ++ y, by rw [hy, hx, List.append_assoc], by rw [NoErr, errorsOf_append, nx, ny]; rfl⟩⟩

/-- A sub-step's answer, where it is a state, is one that keeps those fields. -/
def SubStep.Kept (e : State) (x : SubStep) : Prop :=
  match x with
  | .go s => BackKept e s
  | .stop s => BackKept e s
  | .stuck _ => True

theorem SubStep.Kept.andThen {e : State} {x : SubStep} {k : State → SubStep} (hx : x.Kept e)
    (hk : ∀ s, (k s).Kept s) : (x.andThen k).Kept e := by
  cases x with
  | go s =>
    have h := hk s
    revert h
    show (k s).Kept s → (k s).Kept e
    cases k s with
    | go u => exact fun h => BackKept.trans hx h
    | stop u => exact fun h => BackKept.trans hx h
    | stuck f => exact fun _ => trivial
  | stop s => exact hx
  | stuck f => exact trivial

theorem BackKept.of_append {e t : State} (tr : List Event) (ht : t.trace = e.trace ++ tr) (hn : NoErr tr)
    (h : t = { e with
      pc := t.pc, bufA := t.bufA, bufB := t.bufB, slotF := t.slotF, slotD := t.slotD, slotS := t.slotS,
      win := t.win, ftab := t.ftab, bubble := t.bubble, done := t.done, fatal := t.fatal,
      fatalCode := t.fatalCode, fatalInfo := t.fatalInfo, seqCtr := t.seqCtr, trace := t.trace }) :
    BackKept e t := by
  constructor
  case trace => exact ⟨tr, ht, hn⟩
  all_goals rw [h]

theorem subDecode_kept (s : State) : (subDecode s).Kept s := by
  unfold subDecode
  split
  · exact BackKept.refl s
  · next f _ =>
    dsimp only
    split
    · exact .of_append [.fatal .unknownOpcode f.word] rfl rfl rfl
    · exact .of_append [.fatal .unknownFunct f.word] rfl rfl rfl
    · next i _ =>
      unfold decodeInstr placeDecoded predictAtDecode
      dsimp only
      generalize newRec i f.fpc s.emptyF.countDecode.seqCtr = r
      by_cases hp : ((readOperands i s.emptyF.countDecode).emit (.id r)).predictsTaken r.instr = true
      · simp only [hp, if_true]
        split
        · exact trivial
        · split
          · next n _ _ _ => exact .of_append [.id r, .stall n] (by simp [park]) rfl rfl
          · exact .of_append [.id r] rfl rfl rfl
      · simp only [hp]
        split
        · exact trivial
        · split
          · next n _ _ _ => exact .of_append [.id r, .stall n] (by simp [park]) rfl rfl
          · exact .of_append [.id r] rfl rfl rfl

theorem subFetch_kept (fl : Bool) (s : State) : (subFetch fl s).Kept s := by
  unfold subFetch
  split
  · exact .of_append [.ifWithheld] rfl rfl rfl
  · split
    · exact .of_append [.bubble] rfl rfl rfl
    · split
      · exact .of_append [.ifAt s.pc] rfl rfl rfl
      · dsimp only
        split
        · exact .of_append [.ifNone, .done] (by simp) rfl rfl
        · exact .of_append [.ifNone] rfl rfl rfl

theorem subPromote_kept (s : State) : (subPromote s).Kept s := by
  unfold subPromote
  split
  · exact BackKept.refl s
  · next i _ =>
    split
    · dsimp only
      split
      · split
        · exact trivial
        · exact .of_append [.promote i] rfl rfl rfl
      · exact .of_append [.promote i] rfl rfl rfl
    · exact BackKept.refl s

theorem applyForwards_kept (s : State) : BackKept s (decrementBubble (applyForwards s)) := by
  have key : ∀ (es : List FwdEntry) (s : State),
      ∃ tr, (es.foldl applyEntry s).trace = s.trace ++ tr ∧ NoErr tr := by
    intro es
    induction es with
    | nil => exact fun s => ⟨[], by simp, rfl⟩
    | cons x rest ih =>
      intro s
      obtain ⟨tr, h, hn⟩ := ih (applyEntry s x)
      refine ⟨.fwd x :: tr, ?_, hn⟩
      rw [List.foldl_cons, h]
      unfold applyEntry
      split <;> simp
  obtain ⟨tr, h, hn⟩ := key s.ftab s
  obtain ⟨a, b, u, hs⟩ := applyForwards_shape s
  refine .of_append tr h hn ?_
  rw [hs]
  rfl

/-- Sub-steps 4 to 8 keep those fields, wherever they answer a state. -/
theorem pipelineBack_kept (fl : Bool) (e t : State) (h : (pipelineBack fl e).outcome = .next t) :
    BackKept e t := by
  have key : (pipelineBack fl e).Kept e := by
    have h0 : BackKept e (shiftWindow e) := .of_append [] (by simp) rfl rfl
    have h1 : (subDecode (shiftWindow e)).Kept e := by
      have := subDecode_kept (shiftWindow e)
      revert this
      cases subDecode (shiftWindow e) with
      | go s => exact fun h => h0.trans h
      | stop s => exact fun h => h0.trans h
      | stuck f => exact fun _ => trivial
    exact h1.andThen fun s4 => (subFetch_kept fl s4).andThen fun s5 =>
      (subPromote_kept s5).andThen fun s6 => applyForwards_kept s6
  cases hx : pipelineBack fl e with
  | go s => rw [hx] at h key; cases h; exact key
  | stop s => rw [hx] at h key; cases h; exact key
  | stuck f => rw [hx] at h; cases h

end Sys2Proof.Machine
end

