-- ==== Sys2Proof/Laws/Encoding.lean ====
section
/-! SUPPORT. The fields of an encoded word, one lemma per format and field, and the immediates' way back
(R91 to R98, R108). -/

namespace Sys2Proof

/-! R format -/

@[simp] theorem opcodeField_encR (f7 : BitVec 7) (rs2 rs1 : Reg) (f3 : BitVec 3) (rd : Reg) (op : BitVec 7) :
    opcodeField (encR f7 rs2 rs1 f3 rd op) = op := by
  ext i hi
  simp only [opcodeField, encR, BitVec.getElem_extractLsb', BitVec.getLsbD_append]
  grind
@[simp] theorem rdField_encR (f7 : BitVec 7) (rs2 rs1 : Reg) (f3 : BitVec 3) (rd : Reg) (op : BitVec 7) :
    rdField (encR f7 rs2 rs1 f3 rd op) = rd := by
  ext i hi
  simp only [rdField, encR, BitVec.getElem_extractLsb', BitVec.getLsbD_append]
  grind
@[simp] theorem funct3Field_encR (f7 : BitVec 7) (rs2 rs1 : Reg) (f3 : BitVec 3) (rd : Reg) (op : BitVec 7) :
    funct3Field (encR f7 rs2 rs1 f3 rd op) = f3 := by
  ext i hi
  simp only [funct3Field, encR, BitVec.getElem_extractLsb', BitVec.getLsbD_append]
  grind
@[simp] theorem rs1Field_encR (f7 : BitVec 7) (rs2 rs1 : Reg) (f3 : BitVec 3) (rd : Reg) (op : BitVec 7) :
    rs1Field (encR f7 rs2 rs1 f3 rd op) = rs1 := by
  ext i hi
  simp only [rs1Field, encR, BitVec.getElem_extractLsb', BitVec.getLsbD_append]
  grind
@[simp] theorem rs2Field_encR (f7 : BitVec 7) (rs2 rs1 : Reg) (f3 : BitVec 3) (rd : Reg) (op : BitVec 7) :
    rs2Field (encR f7 rs2 rs1 f3 rd op) = rs2 := by
  ext i hi
  simp only [rs2Field, encR, BitVec.getElem_extractLsb', BitVec.getLsbD_append]
  grind
@[simp] theorem funct7Field_encR (f7 : BitVec 7) (rs2 rs1 : Reg) (f3 : BitVec 3) (rd : Reg) (op : BitVec 7) :
    funct7Field (encR f7 rs2 rs1 f3 rd op) = f7 := by
  ext i hi
  simp only [funct7Field, encR, BitVec.getElem_extractLsb', BitVec.getLsbD_append]
  grind

/-! I format -/

@[simp] theorem opcodeField_encI (m : Word) (rs1 : Reg) (f3 : BitVec 3) (rd : Reg) (op : BitVec 7) :
    opcodeField (encI m rs1 f3 rd op) = op := by
  ext i hi
  simp only [opcodeField, encI, BitVec.getElem_extractLsb', BitVec.getLsbD_append]
  grind
@[simp] theorem rdField_encI (m : Word) (rs1 : Reg) (f3 : BitVec 3) (rd : Reg) (op : BitVec 7) :
    rdField (encI m rs1 f3 rd op) = rd := by
  ext i hi
  simp only [rdField, encI, BitVec.getElem_extractLsb', BitVec.getLsbD_append]
  grind
@[simp] theorem funct3Field_encI (m : Word) (rs1 : Reg) (f3 : BitVec 3) (rd : Reg) (op : BitVec 7) :
    funct3Field (encI m rs1 f3 rd op) = f3 := by
  ext i hi
  simp only [funct3Field, encI, BitVec.getElem_extractLsb', BitVec.getLsbD_append]
  grind
@[simp] theorem rs1Field_encI (m : Word) (rs1 : Reg) (f3 : BitVec 3) (rd : Reg) (op : BitVec 7) :
    rs1Field (encI m rs1 f3 rd op) = rs1 := by
  ext i hi
  simp only [rs1Field, encI, BitVec.getElem_extractLsb', BitVec.getLsbD_append]
  grind

/-! S format -/

@[simp] theorem opcodeField_encS (m : Word) (rs2 rs1 : Reg) (f3 : BitVec 3) (op : BitVec 7) :
    opcodeField (encS m rs2 rs1 f3 op) = op := by
  ext i hi
  simp only [opcodeField, encS, BitVec.getElem_extractLsb', BitVec.getLsbD_append]
  grind
@[simp] theorem funct3Field_encS (m : Word) (rs2 rs1 : Reg) (f3 : BitVec 3) (op : BitVec 7) :
    funct3Field (encS m rs2 rs1 f3 op) = f3 := by
  ext i hi
  simp only [funct3Field, encS, BitVec.getElem_extractLsb', BitVec.getLsbD_append]
  grind
@[simp] theorem rs1Field_encS (m : Word) (rs2 rs1 : Reg) (f3 : BitVec 3) (op : BitVec 7) :
    rs1Field (encS m rs2 rs1 f3 op) = rs1 := by
  ext i hi
  simp only [rs1Field, encS, BitVec.getElem_extractLsb', BitVec.getLsbD_append]
  grind
@[simp] theorem rs2Field_encS (m : Word) (rs2 rs1 : Reg) (f3 : BitVec 3) (op : BitVec 7) :
    rs2Field (encS m rs2 rs1 f3 op) = rs2 := by
  ext i hi
  simp only [rs2Field, encS, BitVec.getElem_extractLsb', BitVec.getLsbD_append]
  grind

/-! B format -/

@[simp] theorem opcodeField_encB (m : Word) (rs2 rs1 : Reg) (f3 : BitVec 3) (op : BitVec 7) :
    opcodeField (encB m rs2 rs1 f3 op) = op := by
  ext i hi
  simp only [opcodeField, encB, BitVec.getElem_extractLsb', BitVec.getLsbD_append]
  grind
@[simp] theorem funct3Field_encB (m : Word) (rs2 rs1 : Reg) (f3 : BitVec 3) (op : BitVec 7) :
    funct3Field (encB m rs2 rs1 f3 op) = f3 := by
  ext i hi
  simp only [funct3Field, encB, BitVec.getElem_extractLsb', BitVec.getLsbD_append]
  grind
@[simp] theorem rs1Field_encB (m : Word) (rs2 rs1 : Reg) (f3 : BitVec 3) (op : BitVec 7) :
    rs1Field (encB m rs2 rs1 f3 op) = rs1 := by
  ext i hi
  simp only [rs1Field, encB, BitVec.getElem_extractLsb', BitVec.getLsbD_append]
  grind
@[simp] theorem rs2Field_encB (m : Word) (rs2 rs1 : Reg) (f3 : BitVec 3) (op : BitVec 7) :
    rs2Field (encB m rs2 rs1 f3 op) = rs2 := by
  ext i hi
  simp only [rs2Field, encB, BitVec.getElem_extractLsb', BitVec.getLsbD_append]
  grind

/-! U format -/

@[simp] theorem opcodeField_encU (m : Word) (rd : Reg) (op : BitVec 7) :
    opcodeField (encU m rd op) = op := by
  ext i hi
  simp only [opcodeField, encU, BitVec.getElem_extractLsb', BitVec.getLsbD_append]
  grind
@[simp] theorem rdField_encU (m : Word) (rd : Reg) (op : BitVec 7) :
    rdField (encU m rd op) = rd := by
  ext i hi
  simp only [rdField, encU, BitVec.getElem_extractLsb', BitVec.getLsbD_append]
  grind

/-! UJ format -/

@[simp] theorem opcodeField_encUJ (m : Word) (rd : Reg) (op : BitVec 7) :
    opcodeField (encUJ m rd op) = op := by
  ext i hi
  simp only [opcodeField, encUJ, BitVec.getElem_extractLsb', BitVec.getLsbD_append]
  grind
@[simp] theorem rdField_encUJ (m : Word) (rd : Reg) (op : BitVec 7) :
    rdField (encUJ m rd op) = rd := by
  ext i hi
  simp only [rdField, encUJ, BitVec.getElem_extractLsb', BitVec.getLsbD_append]
  grind

/-! The immediates -/

/-- A value in the signed 12-bit range is the sign extension of its low 12 bits (R10, R98). -/
theorem signExtend_low12 (m : Word) (h : fitsSigned 12 m) :
    (m.extractLsb' 0 12).signExtend 32 = m := by
  apply BitVec.eq_of_toInt_eq
  rw [BitVec.toInt_signExtend_of_le (by decide)]
  have hm := m.isLt
  simp only [fitsSigned, BitVec.toInt_eq_toNat_bmod, BitVec.extractLsb'_toNat, Int.bmod_def] at *
  simp at *
  omega

/-- A value in the signed 13-bit range is the sign extension of its low 13 bits (R10, R98). -/
theorem signExtend_low13 (m : Word) (h : fitsSigned 13 m) :
    (m.extractLsb' 0 13).signExtend 32 = m := by
  apply BitVec.eq_of_toInt_eq
  rw [BitVec.toInt_signExtend_of_le (by decide)]
  have hm := m.isLt
  simp only [fitsSigned, BitVec.toInt_eq_toNat_bmod, BitVec.extractLsb'_toNat, Int.bmod_def] at *
  simp at *
  omega

/-- A value in the signed 20-bit range is the sign extension of its low 20 bits (R10, R98). -/
theorem signExtend_low20 (m : Word) (h : fitsSigned 20 m) :
    (m.extractLsb' 0 20).signExtend 32 = m := by
  apply BitVec.eq_of_toInt_eq
  rw [BitVec.toInt_signExtend_of_le (by decide)]
  have hm := m.isLt
  simp only [fitsSigned, BitVec.toInt_eq_toNat_bmod, BitVec.extractLsb'_toNat, Int.bmod_def] at *
  simp at *
  omega

/-- A value in the signed 21-bit range is the sign extension of its low 21 bits (R10, R98). -/
theorem signExtend_low21 (m : Word) (h : fitsSigned 21 m) :
    (m.extractLsb' 0 21).signExtend 32 = m := by
  apply BitVec.eq_of_toInt_eq
  rw [BitVec.toInt_signExtend_of_le (by decide)]
  have hm := m.isLt
  simp only [fitsSigned, BitVec.toInt_eq_toNat_bmod, BitVec.extractLsb'_toNat, Int.bmod_def] at *
  simp at *
  omega

/-- Bit 0 of an even value is 0 (R95, R97). -/
theorem isEven_bit0 (m : Word) (h : isEven m) : m.getLsbD 0 = false := by
  rw [← BitVec.testBit_toNat]
  simpa [Nat.testBit_zero] using h

theorem immI_encI (m : Word) (rs1 : Reg) (f3 : BitVec 3) (rd : Reg) (op : BitVec 7)
    (h : fitsSigned 12 m) : immI (encI m rs1 f3 rd op) = m := by
  have : (encI m rs1 f3 rd op).extractLsb' 20 12 = m.extractLsb' 0 12 := by
    ext i hi
    simp only [encI, BitVec.getElem_extractLsb', BitVec.getLsbD_append]
    grind
  rw [immI, this, signExtend_low12 m h]

theorem immS_encS (m : Word) (rs2 rs1 : Reg) (f3 : BitVec 3) (op : BitVec 7)
    (h : fitsSigned 12 m) : immS (encS m rs2 rs1 f3 op) = m := by
  have : ((encS m rs2 rs1 f3 op).extractLsb' 25 7 ++ (encS m rs2 rs1 f3 op).extractLsb' 7 5 :
      BitVec 12) = m.extractLsb' 0 12 := by
    apply BitVec.eq_of_getLsbD_eq
    intro i hi
    simp only [encS, BitVec.getLsbD_extractLsb', BitVec.getLsbD_append]
    grind
  rw [immS, this, signExtend_low12 m h]

theorem immB_encB (m : Word) (rs2 rs1 : Reg) (f3 : BitVec 3) (op : BitVec 7)
    (h : fitsSigned 13 m) (he : isEven m) : immB (encB m rs2 rs1 f3 op) = m := by
  have h0 := isEven_bit0 m he
  have : ((encB m rs2 rs1 f3 op).extractLsb' 31 1 ++ (encB m rs2 rs1 f3 op).extractLsb' 7 1 ++
      (encB m rs2 rs1 f3 op).extractLsb' 25 6 ++ (encB m rs2 rs1 f3 op).extractLsb' 8 4 ++
      0#1 : BitVec 13) = m.extractLsb' 0 13 := by
    apply BitVec.eq_of_getLsbD_eq
    intro i hi
    simp only [encB, BitVec.getLsbD_extractLsb', BitVec.getLsbD_append]
    grind
  rw [immB, this, signExtend_low13 m h]

theorem immU_encU (m : Word) (rd : Reg) (op : BitVec 7) (h : fitsSigned 20 m) :
    immU (encU m rd op) = m := by
  have : (encU m rd op).extractLsb' 12 20 = m.extractLsb' 0 20 := by
    ext i hi
    simp only [encU, BitVec.getElem_extractLsb', BitVec.getLsbD_append]
    grind
  rw [immU, this, signExtend_low20 m h]

theorem immUJ_encUJ (m : Word) (rd : Reg) (op : BitVec 7) (h : fitsSigned 21 m) (he : isEven m) :
    immUJ (encUJ m rd op) = m := by
  have h0 := isEven_bit0 m he
  have : ((encUJ m rd op).extractLsb' 31 1 ++ (encUJ m rd op).extractLsb' 12 8 ++
      (encUJ m rd op).extractLsb' 20 1 ++ (encUJ m rd op).extractLsb' 21 10 ++ 0#1 :
      BitVec 21) = m.extractLsb' 0 21 := by
    apply BitVec.eq_of_getLsbD_eq
    intro i hi
    simp only [encUJ, BitVec.getLsbD_extractLsb', BitVec.getLsbD_append]
    grind
  rw [immUJ, this, signExtend_low21 m h]

end Sys2Proof
end

