-- ==== Sys2Proof/Laws/PerInstr.lean ====
section
/-! SUPPORT. Statements about every instruction as syntax, one lemma per constructor: the fields of its encoded
word (R91, R101, R102, R108). -/

namespace Sys2Proof

/-- The encoded word carries the instruction's opcode (R101). -/
def Laws.EncodedOpcode.Statement (i : Instr) : Prop := opcodeField (encode i) = i.opcode

/-- The encoded word carries the instruction's registers, where its format has them (R91 to R97). -/
def Laws.EncodedRegisters.Statement (i : Instr) : Prop :=
  (∀ r, i.rd = some r → rdField (encode i) = r) ∧ (∀ r, i.rs1 = some r → rs1Field (encode i) = r) ∧
    ∀ r, i.rs2 = some r → rs2Field (encode i) = r

/-- The encoded word carries the instruction's function codes, where its format has them (R102). -/
def Laws.EncodedFunctions.Statement (i : Instr) : Prop :=
  (∀ c, i.funct3 = some c → funct3Field (encode i) = c) ∧
    ∀ c, i.funct7 = some c → funct7Field (encode i) = c

theorem Laws.EncodedOpcode.add (rd : Reg) (rs1 : Reg) (rs2 : Reg) :
    Laws.EncodedOpcode.Statement (.add rd rs1 rs2) := by
  simp [Laws.EncodedOpcode.Statement, encode, Instr.opcode]
theorem Laws.EncodedOpcode.sub (rd : Reg) (rs1 : Reg) (rs2 : Reg) :
    Laws.EncodedOpcode.Statement (.sub rd rs1 rs2) := by
  simp [Laws.EncodedOpcode.Statement, encode, Instr.opcode]
theorem Laws.EncodedOpcode.sll (rd : Reg) (rs1 : Reg) (rs2 : Reg) :
    Laws.EncodedOpcode.Statement (.sll rd rs1 rs2) := by
  simp [Laws.EncodedOpcode.Statement, encode, Instr.opcode]
theorem Laws.EncodedOpcode.slt (rd : Reg) (rs1 : Reg) (rs2 : Reg) :
    Laws.EncodedOpcode.Statement (.slt rd rs1 rs2) := by
  simp [Laws.EncodedOpcode.Statement, encode, Instr.opcode]
theorem Laws.EncodedOpcode.xor (rd : Reg) (rs1 : Reg) (rs2 : Reg) :
    Laws.EncodedOpcode.Statement (.xor rd rs1 rs2) := by
  simp [Laws.EncodedOpcode.Statement, encode, Instr.opcode]
theorem Laws.EncodedOpcode.srl (rd : Reg) (rs1 : Reg) (rs2 : Reg) :
    Laws.EncodedOpcode.Statement (.srl rd rs1 rs2) := by
  simp [Laws.EncodedOpcode.Statement, encode, Instr.opcode]
theorem Laws.EncodedOpcode.sra (rd : Reg) (rs1 : Reg) (rs2 : Reg) :
    Laws.EncodedOpcode.Statement (.sra rd rs1 rs2) := by
  simp [Laws.EncodedOpcode.Statement, encode, Instr.opcode]
theorem Laws.EncodedOpcode.or (rd : Reg) (rs1 : Reg) (rs2 : Reg) :
    Laws.EncodedOpcode.Statement (.or rd rs1 rs2) := by
  simp [Laws.EncodedOpcode.Statement, encode, Instr.opcode]
theorem Laws.EncodedOpcode.and (rd : Reg) (rs1 : Reg) (rs2 : Reg) :
    Laws.EncodedOpcode.Statement (.and rd rs1 rs2) := by
  simp [Laws.EncodedOpcode.Statement, encode, Instr.opcode]
theorem Laws.EncodedOpcode.mul (rd : Reg) (rs1 : Reg) (rs2 : Reg) :
    Laws.EncodedOpcode.Statement (.mul rd rs1 rs2) := by
  simp [Laws.EncodedOpcode.Statement, encode, Instr.opcode]
theorem Laws.EncodedOpcode.div (rd : Reg) (rs1 : Reg) (rs2 : Reg) :
    Laws.EncodedOpcode.Statement (.div rd rs1 rs2) := by
  simp [Laws.EncodedOpcode.Statement, encode, Instr.opcode]
theorem Laws.EncodedOpcode.rem (rd : Reg) (rs1 : Reg) (rs2 : Reg) :
    Laws.EncodedOpcode.Statement (.rem rd rs1 rs2) := by
  simp [Laws.EncodedOpcode.Statement, encode, Instr.opcode]
theorem Laws.EncodedOpcode.addi (rd : Reg) (rs1 : Reg) (imm : Word) :
    Laws.EncodedOpcode.Statement (.addi rd rs1 imm) := by
  simp [Laws.EncodedOpcode.Statement, encode, Instr.opcode]
theorem Laws.EncodedOpcode.andi (rd : Reg) (rs1 : Reg) (imm : Word) :
    Laws.EncodedOpcode.Statement (.andi rd rs1 imm) := by
  simp [Laws.EncodedOpcode.Statement, encode, Instr.opcode]
theorem Laws.EncodedOpcode.ori (rd : Reg) (rs1 : Reg) (imm : Word) :
    Laws.EncodedOpcode.Statement (.ori rd rs1 imm) := by
  simp [Laws.EncodedOpcode.Statement, encode, Instr.opcode]
theorem Laws.EncodedOpcode.lb (rd : Reg) (rs1 : Reg) (imm : Word) :
    Laws.EncodedOpcode.Statement (.lb rd rs1 imm) := by
  simp [Laws.EncodedOpcode.Statement, encode, Instr.opcode]
theorem Laws.EncodedOpcode.lh (rd : Reg) (rs1 : Reg) (imm : Word) :
    Laws.EncodedOpcode.Statement (.lh rd rs1 imm) := by
  simp [Laws.EncodedOpcode.Statement, encode, Instr.opcode]
theorem Laws.EncodedOpcode.lw (rd : Reg) (rs1 : Reg) (imm : Word) :
    Laws.EncodedOpcode.Statement (.lw rd rs1 imm) := by
  simp [Laws.EncodedOpcode.Statement, encode, Instr.opcode]
theorem Laws.EncodedOpcode.ld (rd : Reg) (rs1 : Reg) (imm : Word) :
    Laws.EncodedOpcode.Statement (.ld rd rs1 imm) := by
  simp [Laws.EncodedOpcode.Statement, encode, Instr.opcode]
theorem Laws.EncodedOpcode.jalr (rd : Reg) (rs1 : Reg) (imm : Word) :
    Laws.EncodedOpcode.Statement (.jalr rd rs1 imm) := by
  simp [Laws.EncodedOpcode.Statement, encode, Instr.opcode]
theorem Laws.EncodedOpcode.sb (rs1 : Reg) (rs2 : Reg) (imm : Word) :
    Laws.EncodedOpcode.Statement (.sb rs1 rs2 imm) := by
  simp [Laws.EncodedOpcode.Statement, encode, Instr.opcode]
theorem Laws.EncodedOpcode.sh (rs1 : Reg) (rs2 : Reg) (imm : Word) :
    Laws.EncodedOpcode.Statement (.sh rs1 rs2 imm) := by
  simp [Laws.EncodedOpcode.Statement, encode, Instr.opcode]
theorem Laws.EncodedOpcode.sw (rs1 : Reg) (rs2 : Reg) (imm : Word) :
    Laws.EncodedOpcode.Statement (.sw rs1 rs2 imm) := by
  simp [Laws.EncodedOpcode.Statement, encode, Instr.opcode]
theorem Laws.EncodedOpcode.sd (rs1 : Reg) (rs2 : Reg) (imm : Word) :
    Laws.EncodedOpcode.Statement (.sd rs1 rs2 imm) := by
  simp [Laws.EncodedOpcode.Statement, encode, Instr.opcode]
theorem Laws.EncodedOpcode.beq (rs1 : Reg) (rs2 : Reg) (imm : Word) :
    Laws.EncodedOpcode.Statement (.beq rs1 rs2 imm) := by
  simp [Laws.EncodedOpcode.Statement, encode, Instr.opcode]
theorem Laws.EncodedOpcode.bne (rs1 : Reg) (rs2 : Reg) (imm : Word) :
    Laws.EncodedOpcode.Statement (.bne rs1 rs2 imm) := by
  simp [Laws.EncodedOpcode.Statement, encode, Instr.opcode]
theorem Laws.EncodedOpcode.blt (rs1 : Reg) (rs2 : Reg) (imm : Word) :
    Laws.EncodedOpcode.Statement (.blt rs1 rs2 imm) := by
  simp [Laws.EncodedOpcode.Statement, encode, Instr.opcode]
theorem Laws.EncodedOpcode.bge (rs1 : Reg) (rs2 : Reg) (imm : Word) :
    Laws.EncodedOpcode.Statement (.bge rs1 rs2 imm) := by
  simp [Laws.EncodedOpcode.Statement, encode, Instr.opcode]
theorem Laws.EncodedOpcode.lui (rd : Reg) (imm : Word) :
    Laws.EncodedOpcode.Statement (.lui rd imm) := by
  simp [Laws.EncodedOpcode.Statement, encode, Instr.opcode]
theorem Laws.EncodedOpcode.auipc (rd : Reg) (imm : Word) :
    Laws.EncodedOpcode.Statement (.auipc rd imm) := by
  simp [Laws.EncodedOpcode.Statement, encode, Instr.opcode]
theorem Laws.EncodedOpcode.jal (rd : Reg) (imm : Word) :
    Laws.EncodedOpcode.Statement (.jal rd imm) := by
  simp [Laws.EncodedOpcode.Statement, encode, Instr.opcode]

theorem Laws.EncodedRegisters.add (rd : Reg) (rs1 : Reg) (rs2 : Reg) :
    Laws.EncodedRegisters.Statement (.add rd rs1 rs2) := by
  simp [Laws.EncodedRegisters.Statement, encode, Instr.rd, Instr.rs1, Instr.rs2]
theorem Laws.EncodedRegisters.sub (rd : Reg) (rs1 : Reg) (rs2 : Reg) :
    Laws.EncodedRegisters.Statement (.sub rd rs1 rs2) := by
  simp [Laws.EncodedRegisters.Statement, encode, Instr.rd, Instr.rs1, Instr.rs2]
theorem Laws.EncodedRegisters.sll (rd : Reg) (rs1 : Reg) (rs2 : Reg) :
    Laws.EncodedRegisters.Statement (.sll rd rs1 rs2) := by
  simp [Laws.EncodedRegisters.Statement, encode, Instr.rd, Instr.rs1, Instr.rs2]
theorem Laws.EncodedRegisters.slt (rd : Reg) (rs1 : Reg) (rs2 : Reg) :
    Laws.EncodedRegisters.Statement (.slt rd rs1 rs2) := by
  simp [Laws.EncodedRegisters.Statement, encode, Instr.rd, Instr.rs1, Instr.rs2]
theorem Laws.EncodedRegisters.xor (rd : Reg) (rs1 : Reg) (rs2 : Reg) :
    Laws.EncodedRegisters.Statement (.xor rd rs1 rs2) := by
  simp [Laws.EncodedRegisters.Statement, encode, Instr.rd, Instr.rs1, Instr.rs2]
theorem Laws.EncodedRegisters.srl (rd : Reg) (rs1 : Reg) (rs2 : Reg) :
    Laws.EncodedRegisters.Statement (.srl rd rs1 rs2) := by
  simp [Laws.EncodedRegisters.Statement, encode, Instr.rd, Instr.rs1, Instr.rs2]
theorem Laws.EncodedRegisters.sra (rd : Reg) (rs1 : Reg) (rs2 : Reg) :
    Laws.EncodedRegisters.Statement (.sra rd rs1 rs2) := by
  simp [Laws.EncodedRegisters.Statement, encode, Instr.rd, Instr.rs1, Instr.rs2]
theorem Laws.EncodedRegisters.or (rd : Reg) (rs1 : Reg) (rs2 : Reg) :
    Laws.EncodedRegisters.Statement (.or rd rs1 rs2) := by
  simp [Laws.EncodedRegisters.Statement, encode, Instr.rd, Instr.rs1, Instr.rs2]
theorem Laws.EncodedRegisters.and (rd : Reg) (rs1 : Reg) (rs2 : Reg) :
    Laws.EncodedRegisters.Statement (.and rd rs1 rs2) := by
  simp [Laws.EncodedRegisters.Statement, encode, Instr.rd, Instr.rs1, Instr.rs2]
theorem Laws.EncodedRegisters.mul (rd : Reg) (rs1 : Reg) (rs2 : Reg) :
    Laws.EncodedRegisters.Statement (.mul rd rs1 rs2) := by
  simp [Laws.EncodedRegisters.Statement, encode, Instr.rd, Instr.rs1, Instr.rs2]
theorem Laws.EncodedRegisters.div (rd : Reg) (rs1 : Reg) (rs2 : Reg) :
    Laws.EncodedRegisters.Statement (.div rd rs1 rs2) := by
  simp [Laws.EncodedRegisters.Statement, encode, Instr.rd, Instr.rs1, Instr.rs2]
theorem Laws.EncodedRegisters.rem (rd : Reg) (rs1 : Reg) (rs2 : Reg) :
    Laws.EncodedRegisters.Statement (.rem rd rs1 rs2) := by
  simp [Laws.EncodedRegisters.Statement, encode, Instr.rd, Instr.rs1, Instr.rs2]
theorem Laws.EncodedRegisters.addi (rd : Reg) (rs1 : Reg) (imm : Word) :
    Laws.EncodedRegisters.Statement (.addi rd rs1 imm) := by
  simp [Laws.EncodedRegisters.Statement, encode, Instr.rd, Instr.rs1, Instr.rs2]
theorem Laws.EncodedRegisters.andi (rd : Reg) (rs1 : Reg) (imm : Word) :
    Laws.EncodedRegisters.Statement (.andi rd rs1 imm) := by
  simp [Laws.EncodedRegisters.Statement, encode, Instr.rd, Instr.rs1, Instr.rs2]
theorem Laws.EncodedRegisters.ori (rd : Reg) (rs1 : Reg) (imm : Word) :
    Laws.EncodedRegisters.Statement (.ori rd rs1 imm) := by
  simp [Laws.EncodedRegisters.Statement, encode, Instr.rd, Instr.rs1, Instr.rs2]
theorem Laws.EncodedRegisters.lb (rd : Reg) (rs1 : Reg) (imm : Word) :
    Laws.EncodedRegisters.Statement (.lb rd rs1 imm) := by
  simp [Laws.EncodedRegisters.Statement, encode, Instr.rd, Instr.rs1, Instr.rs2]
theorem Laws.EncodedRegisters.lh (rd : Reg) (rs1 : Reg) (imm : Word) :
    Laws.EncodedRegisters.Statement (.lh rd rs1 imm) := by
  simp [Laws.EncodedRegisters.Statement, encode, Instr.rd, Instr.rs1, Instr.rs2]
theorem Laws.EncodedRegisters.lw (rd : Reg) (rs1 : Reg) (imm : Word) :
    Laws.EncodedRegisters.Statement (.lw rd rs1 imm) := by
  simp [Laws.EncodedRegisters.Statement, encode, Instr.rd, Instr.rs1, Instr.rs2]
theorem Laws.EncodedRegisters.ld (rd : Reg) (rs1 : Reg) (imm : Word) :
    Laws.EncodedRegisters.Statement (.ld rd rs1 imm) := by
  simp [Laws.EncodedRegisters.Statement, encode, Instr.rd, Instr.rs1, Instr.rs2]
theorem Laws.EncodedRegisters.jalr (rd : Reg) (rs1 : Reg) (imm : Word) :
    Laws.EncodedRegisters.Statement (.jalr rd rs1 imm) := by
  simp [Laws.EncodedRegisters.Statement, encode, Instr.rd, Instr.rs1, Instr.rs2]
theorem Laws.EncodedRegisters.sb (rs1 : Reg) (rs2 : Reg) (imm : Word) :
    Laws.EncodedRegisters.Statement (.sb rs1 rs2 imm) := by
  simp [Laws.EncodedRegisters.Statement, encode, Instr.rd, Instr.rs1, Instr.rs2]
theorem Laws.EncodedRegisters.sh (rs1 : Reg) (rs2 : Reg) (imm : Word) :
    Laws.EncodedRegisters.Statement (.sh rs1 rs2 imm) := by
  simp [Laws.EncodedRegisters.Statement, encode, Instr.rd, Instr.rs1, Instr.rs2]
theorem Laws.EncodedRegisters.sw (rs1 : Reg) (rs2 : Reg) (imm : Word) :
    Laws.EncodedRegisters.Statement (.sw rs1 rs2 imm) := by
  simp [Laws.EncodedRegisters.Statement, encode, Instr.rd, Instr.rs1, Instr.rs2]
theorem Laws.EncodedRegisters.sd (rs1 : Reg) (rs2 : Reg) (imm : Word) :
    Laws.EncodedRegisters.Statement (.sd rs1 rs2 imm) := by
  simp [Laws.EncodedRegisters.Statement, encode, Instr.rd, Instr.rs1, Instr.rs2]
theorem Laws.EncodedRegisters.beq (rs1 : Reg) (rs2 : Reg) (imm : Word) :
    Laws.EncodedRegisters.Statement (.beq rs1 rs2 imm) := by
  simp [Laws.EncodedRegisters.Statement, encode, Instr.rd, Instr.rs1, Instr.rs2]
theorem Laws.EncodedRegisters.bne (rs1 : Reg) (rs2 : Reg) (imm : Word) :
    Laws.EncodedRegisters.Statement (.bne rs1 rs2 imm) := by
  simp [Laws.EncodedRegisters.Statement, encode, Instr.rd, Instr.rs1, Instr.rs2]
theorem Laws.EncodedRegisters.blt (rs1 : Reg) (rs2 : Reg) (imm : Word) :
    Laws.EncodedRegisters.Statement (.blt rs1 rs2 imm) := by
  simp [Laws.EncodedRegisters.Statement, encode, Instr.rd, Instr.rs1, Instr.rs2]
theorem Laws.EncodedRegisters.bge (rs1 : Reg) (rs2 : Reg) (imm : Word) :
    Laws.EncodedRegisters.Statement (.bge rs1 rs2 imm) := by
  simp [Laws.EncodedRegisters.Statement, encode, Instr.rd, Instr.rs1, Instr.rs2]
theorem Laws.EncodedRegisters.lui (rd : Reg) (imm : Word) :
    Laws.EncodedRegisters.Statement (.lui rd imm) := by
  simp [Laws.EncodedRegisters.Statement, encode, Instr.rd, Instr.rs1, Instr.rs2]
theorem Laws.EncodedRegisters.auipc (rd : Reg) (imm : Word) :
    Laws.EncodedRegisters.Statement (.auipc rd imm) := by
  simp [Laws.EncodedRegisters.Statement, encode, Instr.rd, Instr.rs1, Instr.rs2]
theorem Laws.EncodedRegisters.jal (rd : Reg) (imm : Word) :
    Laws.EncodedRegisters.Statement (.jal rd imm) := by
  simp [Laws.EncodedRegisters.Statement, encode, Instr.rd, Instr.rs1, Instr.rs2]

theorem Laws.EncodedFunctions.add (rd : Reg) (rs1 : Reg) (rs2 : Reg) :
    Laws.EncodedFunctions.Statement (.add rd rs1 rs2) := by
  simp [Laws.EncodedFunctions.Statement, encode, Instr.funct3, Instr.funct7]
theorem Laws.EncodedFunctions.sub (rd : Reg) (rs1 : Reg) (rs2 : Reg) :
    Laws.EncodedFunctions.Statement (.sub rd rs1 rs2) := by
  simp [Laws.EncodedFunctions.Statement, encode, Instr.funct3, Instr.funct7]
theorem Laws.EncodedFunctions.sll (rd : Reg) (rs1 : Reg) (rs2 : Reg) :
    Laws.EncodedFunctions.Statement (.sll rd rs1 rs2) := by
  simp [Laws.EncodedFunctions.Statement, encode, Instr.funct3, Instr.funct7]
theorem Laws.EncodedFunctions.slt (rd : Reg) (rs1 : Reg) (rs2 : Reg) :
    Laws.EncodedFunctions.Statement (.slt rd rs1 rs2) := by
  simp [Laws.EncodedFunctions.Statement, encode, Instr.funct3, Instr.funct7]
theorem Laws.EncodedFunctions.xor (rd : Reg) (rs1 : Reg) (rs2 : Reg) :
    Laws.EncodedFunctions.Statement (.xor rd rs1 rs2) := by
  simp [Laws.EncodedFunctions.Statement, encode, Instr.funct3, Instr.funct7]
theorem Laws.EncodedFunctions.srl (rd : Reg) (rs1 : Reg) (rs2 : Reg) :
    Laws.EncodedFunctions.Statement (.srl rd rs1 rs2) := by
  simp [Laws.EncodedFunctions.Statement, encode, Instr.funct3, Instr.funct7]
theorem Laws.EncodedFunctions.sra (rd : Reg) (rs1 : Reg) (rs2 : Reg) :
    Laws.EncodedFunctions.Statement (.sra rd rs1 rs2) := by
  simp [Laws.EncodedFunctions.Statement, encode, Instr.funct3, Instr.funct7]
theorem Laws.EncodedFunctions.or (rd : Reg) (rs1 : Reg) (rs2 : Reg) :
    Laws.EncodedFunctions.Statement (.or rd rs1 rs2) := by
  simp [Laws.EncodedFunctions.Statement, encode, Instr.funct3, Instr.funct7]
theorem Laws.EncodedFunctions.and (rd : Reg) (rs1 : Reg) (rs2 : Reg) :
    Laws.EncodedFunctions.Statement (.and rd rs1 rs2) := by
  simp [Laws.EncodedFunctions.Statement, encode, Instr.funct3, Instr.funct7]
theorem Laws.EncodedFunctions.mul (rd : Reg) (rs1 : Reg) (rs2 : Reg) :
    Laws.EncodedFunctions.Statement (.mul rd rs1 rs2) := by
  simp [Laws.EncodedFunctions.Statement, encode, Instr.funct3, Instr.funct7]
theorem Laws.EncodedFunctions.div (rd : Reg) (rs1 : Reg) (rs2 : Reg) :
    Laws.EncodedFunctions.Statement (.div rd rs1 rs2) := by
  simp [Laws.EncodedFunctions.Statement, encode, Instr.funct3, Instr.funct7]
theorem Laws.EncodedFunctions.rem (rd : Reg) (rs1 : Reg) (rs2 : Reg) :
    Laws.EncodedFunctions.Statement (.rem rd rs1 rs2) := by
  simp [Laws.EncodedFunctions.Statement, encode, Instr.funct3, Instr.funct7]
theorem Laws.EncodedFunctions.addi (rd : Reg) (rs1 : Reg) (imm : Word) :
    Laws.EncodedFunctions.Statement (.addi rd rs1 imm) := by
  simp [Laws.EncodedFunctions.Statement, encode, Instr.funct3, Instr.funct7]
theorem Laws.EncodedFunctions.andi (rd : Reg) (rs1 : Reg) (imm : Word) :
    Laws.EncodedFunctions.Statement (.andi rd rs1 imm) := by
  simp [Laws.EncodedFunctions.Statement, encode, Instr.funct3, Instr.funct7]
theorem Laws.EncodedFunctions.ori (rd : Reg) (rs1 : Reg) (imm : Word) :
    Laws.EncodedFunctions.Statement (.ori rd rs1 imm) := by
  simp [Laws.EncodedFunctions.Statement, encode, Instr.funct3, Instr.funct7]
theorem Laws.EncodedFunctions.lb (rd : Reg) (rs1 : Reg) (imm : Word) :
    Laws.EncodedFunctions.Statement (.lb rd rs1 imm) := by
  simp [Laws.EncodedFunctions.Statement, encode, Instr.funct3, Instr.funct7]
theorem Laws.EncodedFunctions.lh (rd : Reg) (rs1 : Reg) (imm : Word) :
    Laws.EncodedFunctions.Statement (.lh rd rs1 imm) := by
  simp [Laws.EncodedFunctions.Statement, encode, Instr.funct3, Instr.funct7]
theorem Laws.EncodedFunctions.lw (rd : Reg) (rs1 : Reg) (imm : Word) :
    Laws.EncodedFunctions.Statement (.lw rd rs1 imm) := by
  simp [Laws.EncodedFunctions.Statement, encode, Instr.funct3, Instr.funct7]
theorem Laws.EncodedFunctions.ld (rd : Reg) (rs1 : Reg) (imm : Word) :
    Laws.EncodedFunctions.Statement (.ld rd rs1 imm) := by
  simp [Laws.EncodedFunctions.Statement, encode, Instr.funct3, Instr.funct7]
theorem Laws.EncodedFunctions.jalr (rd : Reg) (rs1 : Reg) (imm : Word) :
    Laws.EncodedFunctions.Statement (.jalr rd rs1 imm) := by
  simp [Laws.EncodedFunctions.Statement, encode, Instr.funct3, Instr.funct7]
theorem Laws.EncodedFunctions.sb (rs1 : Reg) (rs2 : Reg) (imm : Word) :
    Laws.EncodedFunctions.Statement (.sb rs1 rs2 imm) := by
  simp [Laws.EncodedFunctions.Statement, encode, Instr.funct3, Instr.funct7]
theorem Laws.EncodedFunctions.sh (rs1 : Reg) (rs2 : Reg) (imm : Word) :
    Laws.EncodedFunctions.Statement (.sh rs1 rs2 imm) := by
  simp [Laws.EncodedFunctions.Statement, encode, Instr.funct3, Instr.funct7]
theorem Laws.EncodedFunctions.sw (rs1 : Reg) (rs2 : Reg) (imm : Word) :
    Laws.EncodedFunctions.Statement (.sw rs1 rs2 imm) := by
  simp [Laws.EncodedFunctions.Statement, encode, Instr.funct3, Instr.funct7]
theorem Laws.EncodedFunctions.sd (rs1 : Reg) (rs2 : Reg) (imm : Word) :
    Laws.EncodedFunctions.Statement (.sd rs1 rs2 imm) := by
  simp [Laws.EncodedFunctions.Statement, encode, Instr.funct3, Instr.funct7]
theorem Laws.EncodedFunctions.beq (rs1 : Reg) (rs2 : Reg) (imm : Word) :
    Laws.EncodedFunctions.Statement (.beq rs1 rs2 imm) := by
  simp [Laws.EncodedFunctions.Statement, encode, Instr.funct3, Instr.funct7]
theorem Laws.EncodedFunctions.bne (rs1 : Reg) (rs2 : Reg) (imm : Word) :
    Laws.EncodedFunctions.Statement (.bne rs1 rs2 imm) := by
  simp [Laws.EncodedFunctions.Statement, encode, Instr.funct3, Instr.funct7]
theorem Laws.EncodedFunctions.blt (rs1 : Reg) (rs2 : Reg) (imm : Word) :
    Laws.EncodedFunctions.Statement (.blt rs1 rs2 imm) := by
  simp [Laws.EncodedFunctions.Statement, encode, Instr.funct3, Instr.funct7]
theorem Laws.EncodedFunctions.bge (rs1 : Reg) (rs2 : Reg) (imm : Word) :
    Laws.EncodedFunctions.Statement (.bge rs1 rs2 imm) := by
  simp [Laws.EncodedFunctions.Statement, encode, Instr.funct3, Instr.funct7]
theorem Laws.EncodedFunctions.lui (rd : Reg) (imm : Word) :
    Laws.EncodedFunctions.Statement (.lui rd imm) := by
  simp [Laws.EncodedFunctions.Statement, encode, Instr.funct3, Instr.funct7]
theorem Laws.EncodedFunctions.auipc (rd : Reg) (imm : Word) :
    Laws.EncodedFunctions.Statement (.auipc rd imm) := by
  simp [Laws.EncodedFunctions.Statement, encode, Instr.funct3, Instr.funct7]
theorem Laws.EncodedFunctions.jal (rd : Reg) (imm : Word) :
    Laws.EncodedFunctions.Statement (.jal rd imm) := by
  simp [Laws.EncodedFunctions.Statement, encode, Instr.funct3, Instr.funct7]

end Sys2Proof
end

