-- ==== Sys2Proof/Tests/Slice0.lean ====
section
/-! SUPPORT. The model's own tests: the checks of `wellFormed`, decoding of words from 95_test_vectors.md
part 2, at most two results per instruction with values from parts 3 to 5, and for every statement with
hypotheses a witness that meets them. -/

namespace Sys2Proof.Tests

open Sys2Proof.Machine Sys2Proof.Safety Sys2Proof.Claims

/-! # WellFormed: an ill-formed term for each check -/

theorem test_illFormed_12bit : (Instr.addi 1 2 2048#32).wellFormed = false := by decide
theorem test_illFormed_12bit_low : (Instr.sw 1 2 (BitVec.ofInt 32 (-2049))).wellFormed = false := by decide
theorem test_illFormed_load : (Instr.ld 1 2 2048#32).wellFormed = false := by decide
theorem test_illFormed_jalr : (Instr.jalr 1 2 2048#32).wellFormed = false := by decide
theorem test_illFormed_13bit : (Instr.beq 1 2 4096#32).wellFormed = false := by decide
theorem test_illFormed_branch_odd : (Instr.bge 1 2 3#32).wellFormed = false := by decide
theorem test_illFormed_20bit : (Instr.lui 1 524288#32).wellFormed = false := by decide
theorem test_illFormed_21bit : (Instr.jal 1 1048576#32).wellFormed = false := by decide
theorem test_illFormed_jal_odd : (Instr.jal 1 1#32).wellFormed = false := by decide
theorem test_wellFormed_limits :
    (Instr.addi 1 2 2047#32).wellFormed = true ∧ (Instr.beq 1 2 4094#32).wellFormed = true ∧
      (Instr.lui 1 524287#32).wellFormed = true ∧ (Instr.jal 1 1048574#32).wellFormed = true := by
  decide

/-! # Decoding, by the words of 95_test_vectors.md part 2.1 -/

theorem test_decode_R :
    decode 0x007302B3#32 = .ok (.add 5 6 7) ∧
    decode 0x407302B3#32 = .ok (.sub 5 6 7) ∧
    decode 0x007312B3#32 = .ok (.sll 5 6 7) ∧
    decode 0x007322B3#32 = .ok (.slt 5 6 7) ∧
    decode 0x007342B3#32 = .ok (.xor 5 6 7) ∧
    decode 0x007352B3#32 = .ok (.srl 5 6 7) ∧
    decode 0x407352B3#32 = .ok (.sra 5 6 7) ∧
    decode 0x007362B3#32 = .ok (.or 5 6 7) ∧
    decode 0x007372B3#32 = .ok (.and 5 6 7) ∧
    decode 0x027302B3#32 = .ok (.mul 5 6 7) ∧
    decode 0x027342B3#32 = .ok (.div 5 6 7) ∧
    decode 0x027362B3#32 = .ok (.rem 5 6 7) ∧
    decode 0x01FF8FB3#32 = .ok (.add 31 31 31) := by
  decide

theorem test_decode_I :
    decode 0xFFF30293#32 = .ok (.addi 5 6 (BitVec.ofInt 32 (-1))) ∧
    decode 0x7FF30293#32 = .ok (.addi 5 6 2047#32) ∧
    decode 0x80030293#32 = .ok (.addi 5 6 (BitVec.ofInt 32 (-2048))) ∧
    decode 0x0FF37293#32 = .ok (.andi 5 6 255#32) ∧
    decode 0xF0036293#32 = .ok (.ori 5 6 (BitVec.ofInt 32 (-256))) := by
  decide

theorem test_decode_loads :
    decode 0x00418383#32 = .ok (.lb 7 3 4#32) ∧
    decode 0x00219403#32 = .ok (.lh 8 3 2#32) ∧
    decode 0x0001A283#32 = .ok (.lw 5 3 0#32) ∧
    decode 0xFF813503#32 = .ok (.ld 10 2 (BitVec.ofInt 32 (-8))) := by
  decide

theorem test_decode_jalr :
    decode 0x00008067#32 = .ok (.jalr 0 1 0#32) ∧
    decode 0xFFD280E7#32 = .ok (.jalr 1 5 (BitVec.ofInt 32 (-3))) := by
  decide

theorem test_decode_stores :
    decode 0x00618223#32 = .ok (.sb 3 6 4#32) ∧
    decode 0xFE619F23#32 = .ok (.sh 3 6 (BitVec.ofInt 32 (-2))) ∧
    decode 0x0051A023#32 = .ok (.sw 3 5 0#32) ∧
    decode 0xFE613C23#32 = .ok (.sd 2 6 (BitVec.ofInt 32 (-8))) ∧
    decode 0x7FFFAFA3#32 = .ok (.sw 31 31 2047#32) ∧
    decode 0x80532023#32 = .ok (.sw 6 5 (BitVec.ofInt 32 (-2048))) := by
  decide

theorem test_decode_branches :
    decode 0x00008663#32 = .ok (.beq 1 0 12#32) ∧
    decode 0x00009463#32 = .ok (.bne 1 0 8#32) ∧
    decode 0xFE734CE3#32 = .ok (.blt 6 7 (BitVec.ofInt 32 (-8))) ∧
    decode 0x7E735FE3#32 = .ok (.bge 6 7 4094#32) ∧
    decode 0x80000063#32 = .ok (.beq 0 0 (BitVec.ofInt 32 (-4096))) := by
  decide

theorem test_decode_U :
    decode 0x123452B7#32 = .ok (.lui 5 74565#32) ∧
    decode 0xFFFFF2B7#32 = .ok (.lui 5 (BitVec.ofInt 32 (-1))) ∧
    decode 0x00001297#32 = .ok (.auipc 5 1#32) ∧
    decode 0x80000297#32 = .ok (.auipc 5 (BitVec.ofInt 32 (-524288))) := by
  decide

theorem test_decode_jal :
    decode 0x00C000EF#32 = .ok (.jal 1 12#32) ∧
    decode 0xFF1FF06F#32 = .ok (.jal 0 (BitVec.ofInt 32 (-16))) ∧
    decode 0x7FFFF0EF#32 = .ok (.jal 1 1048574#32) ∧
    decode 0x800000EF#32 = .ok (.jal 1 (BitVec.ofInt 32 (-1048576))) ∧
    decode 0x0010006F#32 = .ok (.jal 0 2048#32) := by
  decide

/-! Refused words (part 2.2) -/

theorem test_refuse_unknownOpcode :
    decode 0x00000000#32 = .unknownOpcode ∧
    decode 0xFFFFFFFF#32 = .unknownOpcode ∧
    decode 0x00000073#32 = .unknownOpcode ∧
    decode 0x00100073#32 = .unknownOpcode ∧
    decode 0x0FF0000F#32 = .unknownOpcode ∧
    decode 0x0000100F#32 = .unknownOpcode ∧
    decode 0x0000003B#32 = .unknownOpcode ∧
    decode 0x0000001B#32 = .unknownOpcode ∧
    decode 0x0000202F#32 = .unknownOpcode ∧
    decode 0x00000053#32 = .unknownOpcode := by
  decide

theorem test_refuse_unknownFunct :
    decode 0x00002013#32 = .unknownFunct ∧
    decode 0x00001013#32 = .unknownFunct ∧
    decode 0x00004003#32 = .unknownFunct ∧
    decode 0x00005003#32 = .unknownFunct ∧
    decode 0x00006003#32 = .unknownFunct ∧
    decode 0x00004023#32 = .unknownFunct ∧
    decode 0x00006063#32 = .unknownFunct ∧
    decode 0x00007063#32 = .unknownFunct ∧
    decode 0x00003033#32 = .unknownFunct ∧
    decode 0x40001033#32 = .unknownFunct ∧
    decode 0x02001033#32 = .unknownFunct ∧
    decode 0x02005033#32 = .unknownFunct ∧
    decode 0x00001067#32 = .unknownFunct := by
  decide

/-! # Results, by the rows of 95_test_vectors.md parts 3 to 5 -/

/-- The memory of part 4.1. -/
def mem41 : Memory :=
  Memory.ofCells [(0x10000000, 0x78#8), (0x10000001, 0x56#8), (0x10000002, 0x34#8), (0x10000003, 0x12#8),
    (0x10000004, 0x80#8), (0x10000005, 0xFF#8), (0x10000006, 0x7F#8)]

/-- The reference machine with that memory, x5, x6 and pc as given. -/
def at5 (x5 x6 pc : Word) : State :=
  (((State.resetWith Params.reference [] mem41 []).writeReg 5 x5).writeReg 6 x6).setPc pc

/-- What one view of the state shows after an instruction run alone; none if it stops. -/
def shows (i : Instr) (s : State) (view : State → α) : Option α :=
  match exec i s with
  | .next t => some (view t)
  | .fault _ => none
  | .refused _ => none

/-- x7, the logged code and the logged info. -/
def x7AndLog (t : State) : Word × BitVec 8 × Word := (t.readReg 7, t.errCode, t.errInfo)

/-- The bytes of the data space from an address. -/
def dataFrom (a n : Nat) (t : State) : List Byte := Memory.readBytes t.data a n

theorem test_add_wraps : shows (.add 7 5 6) (at5 0x7FFFFFFF#32 0x00000001#32 0x0#32) x7AndLog =
    some (0x80000000#32, 0#8, 0x0#32) := by decide
theorem test_sub_borrow : shows (.sub 7 5 6) (at5 0x00000000#32 0x00000001#32 0x0#32) x7AndLog =
    some (0xFFFFFFFF#32, 0#8, 0x0#32) := by decide
theorem test_sll_amount_low5 : shows (.sll 7 5 6) (at5 0x00000003#32 0xFFFFFFE1#32 0x0#32) x7AndLog =
    some (0x00000006#32, 0#8, 0x0#32) := by decide
theorem test_slt_signed : shows (.slt 7 5 6) (at5 0x80000000#32 0x7FFFFFFF#32 0x0#32) x7AndLog =
    some (0x00000001#32, 0#8, 0x0#32) := by decide
theorem test_slt_equal : shows (.slt 7 5 6) (at5 0x00000005#32 0x00000005#32 0x0#32) x7AndLog =
    some (0x00000000#32, 0#8, 0x0#32) := by decide
theorem test_xor : shows (.xor 7 5 6) (at5 0xFF00FF00#32 0x0FF00FF0#32 0x0#32) x7AndLog =
    some (0xF0F0F0F0#32, 0#8, 0x0#32) := by decide
theorem test_srl_zero_fill : shows (.srl 7 5 6) (at5 0xFFFFFFFF#32 0x00000004#32 0x0#32) x7AndLog =
    some (0x0FFFFFFF#32, 0#8, 0x0#32) := by decide
theorem test_sra_sign_fill : shows (.sra 7 5 6) (at5 0x80000000#32 0x00000004#32 0x0#32) x7AndLog =
    some (0xF8000000#32, 0#8, 0x0#32) := by decide
theorem test_sra_amount_low5 : shows (.sra 7 5 6) (at5 0xFFFFFFFF#32 0x00000021#32 0x0#32) x7AndLog =
    some (0xFFFFFFFF#32, 0#8, 0x0#32) := by decide
theorem test_or : shows (.or 7 5 6) (at5 0xFF00FF00#32 0x0FF00FF0#32 0x0#32) x7AndLog =
    some (0xFFF0FFF0#32, 0#8, 0x0#32) := by decide
theorem test_and : shows (.and 7 5 6) (at5 0xFF00FF00#32 0x0FF00FF0#32 0x0#32) x7AndLog =
    some (0x0F000F00#32, 0#8, 0x0#32) := by decide
theorem test_mul_low : shows (.mul 7 5 6) (at5 0x00003039#32 0xFFFFFD5A#32 0x0#32) x7AndLog =
    some (0xFF80490A#32, 0#8, 0x0#32) := by decide
theorem test_div_truncates : shows (.div 7 5 6) (at5 0xFFFFFFF9#32 0x00000002#32 0x0#32) x7AndLog =
    some (0xFFFFFFFD#32, 0#8, 0x0#32) := by decide
theorem test_div_zero : shows (.div 7 5 6) (at5 0x00000007#32 0x00000000#32 0x40#32) x7AndLog =
    some (0xFFFFFFFF#32, 5#8, 0x40#32) := by decide
theorem test_rem_sign : shows (.rem 7 5 6) (at5 0xFFFFFFF9#32 0x00000002#32 0x0#32) x7AndLog =
    some (0xFFFFFFFF#32, 0#8, 0x0#32) := by decide
theorem test_rem_zero : shows (.rem 7 5 6) (at5 0xFFFFFFF9#32 0x00000000#32 0x40#32) x7AndLog =
    some (0xFFFFFFF9#32, 5#8, 0x40#32) := by decide
theorem test_addi_negative : shows (.addi 7 5 0xFFFFFFFF#32) (at5 5#32 0#32 0#32) x7AndLog =
    some (4#32, 0#8, 0#32) := by decide
theorem test_andi_signExtends : shows (.andi 7 5 0xFFFFFF00#32) (at5 0x12345678#32 0#32 0#32) x7AndLog =
    some (0x12345600#32, 0#8, 0#32) := by decide
theorem test_ori_signExtends : shows (.ori 7 5 0xFFFFFF00#32) (at5 0x12345678#32 0#32 0#32) x7AndLog =
    some (0xFFFFFF78#32, 0#8, 0#32) := by decide
theorem test_lui : shows (.lui 7 0xFFF80000#32) (at5 0#32 0#32 0#32) x7AndLog =
    some (0x80000000#32, 0#8, 0#32) := by decide
theorem test_auipc_wraps : shows (.auipc 7 0xFFF80000#32) (at5 0#32 0#32 0x80000000#32) x7AndLog =
    some (0x00000000#32, 0#8, 0#32) := by decide
theorem test_lb_signExtends : shows (.lb 7 6 4#32) (at5 0#32 0x10000000#32 0#32) x7AndLog =
    some (0xFFFFFF80#32, 0#8, 0x00000000#32) := by decide
theorem test_lb_below_window : shows (.lb 7 6 0xFFFFFFFF#32) (at5 0#32 0x10000000#32 0#32) x7AndLog =
    some (0x00000000#32, 3#8, 0x0FFFFFFF#32) := by decide
theorem test_lh_misaligned : shows (.lh 7 6 3#32) (at5 0#32 0x10000000#32 0#32) x7AndLog =
    some (0xFFFF8012#32, 0#8, 0x00000000#32) := by decide
theorem test_lh_past_end : shows (.lh 7 6 0xFFFFFFFF#32) (at5 0#32 0x10100000#32 0#32) x7AndLog =
    some (0x00000000#32, 3#8, 0x100FFFFF#32) := by decide
theorem test_lw_misaligned : shows (.lw 7 6 1#32) (at5 0#32 0x10000000#32 0#32) x7AndLog =
    some (0x80123456#32, 0#8, 0x00000000#32) := by decide
theorem test_lw_stack_end : shows (.lw 7 6 0#32) (at5 0#32 0x7FFFFFFD#32 0#32) x7AndLog =
    some (0x00000000#32, 3#8, 0x7FFFFFFD#32) := by decide
theorem test_ld_low_half : shows (.ld 7 6 0#32) (at5 0#32 0x10000000#32 0#32) x7AndLog =
    some (0x12345678#32, 0#8, 0x00000000#32) := by decide
theorem test_ld_past_end : shows (.ld 7 6 0xFFFFFFF9#32) (at5 0#32 0x10100000#32 0#32) x7AndLog =
    some (0x00000000#32, 3#8, 0x100FFFF9#32) := by decide
theorem test_sb_low_byte : shows (.sb 6 5 0#32) (at5 0x12345678#32 0x10000010#32 0#32) (dataFrom 0x10000010 2) =
    some [0x78#8, 0x00#8] := by decide
theorem test_sb_past_window : shows (.sb 6 5 0#32) (at5 0x00000001#32 0x10100000#32 0#32) (fun t => (t.errCode, t.errInfo, t.data == mem41)) =
    some (4#8, 0x10100000#32, true) := by decide
theorem test_sh_bytes : shows (.sh 6 5 1#32) (at5 0x12345678#32 0x10000010#32 0#32) (dataFrom 0x10000010 4) =
    some [0x00#8, 0x78#8, 0x56#8, 0x00#8] := by decide
theorem test_sh_past_end : shows (.sh 6 5 0xFFFFFFFF#32) (at5 0x00000001#32 0x10100000#32 0#32) (fun t => (t.errCode, t.errInfo, t.data == mem41)) =
    some (4#8, 0x100FFFFF#32, true) := by decide
theorem test_sw_bytes : shows (.sw 6 5 3#32) (at5 0x12345678#32 0x10000010#32 0#32) (dataFrom 0x10000012 6) =
    some [0x00#8, 0x78#8, 0x56#8, 0x34#8, 0x12#8, 0x00#8] := by decide
theorem test_sw_stack : shows (.sw 6 5 0xFFFFFFFC#32) (at5 0xAABBCCDD#32 0x80000000#32 0#32) (fun t => t.stack) =
    some [(0x7FFFFFFC, 0xDD#8), (0x7FFFFFFD, 0xCC#8), (0x7FFFFFFE, 0xBB#8),
      (0x7FFFFFFF, 0xAA#8)] := by decide
theorem test_sd_signExtends : shows (.sd 6 5 0#32) (at5 0xFFFFFF80#32 0x10000010#32 0#32) (dataFrom 0x10000010 9) =
    some [0x80#8, 0xFF#8, 0xFF#8, 0xFF#8, 0xFF#8, 0xFF#8, 0xFF#8, 0xFF#8, 0x00#8] := by decide
theorem test_sd_past_end : shows (.sd 6 5 0xFFFFFFF9#32) (at5 0x00000001#32 0x10100000#32 0#32) (fun t => (t.errCode, t.errInfo, t.data == mem41)) =
    some (4#8, 0x100FFFF9#32, true) := by decide
theorem test_beq_taken : shows (.beq 5 6 0xFFFFFFF8#32) (at5 0x00000005#32 0x00000005#32 0x100#32) State.pc =
    some 0x000000F8#32 := by decide
theorem test_beq_falls_through : shows (.beq 5 6 0xFFFFFFF8#32) (at5 0x00000005#32 0x00000006#32 0x100#32) State.pc =
    some 0x00000104#32 := by decide
theorem test_bne_taken : shows (.bne 5 6 0xFFFFFFF8#32) (at5 0xFFFFFFFF#32 0x00000001#32 0x100#32) State.pc =
    some 0x000000F8#32 := by decide
theorem test_bne_falls_through : shows (.bne 5 6 0xFFFFFFF8#32) (at5 0x00000005#32 0x00000005#32 0x100#32) State.pc =
    some 0x00000104#32 := by decide
theorem test_blt_signed : shows (.blt 5 6 0xFFFFFFF8#32) (at5 0x80000000#32 0x7FFFFFFF#32 0x100#32) State.pc =
    some 0x000000F8#32 := by decide
theorem test_blt_equal : shows (.blt 5 6 0xFFFFFFF8#32) (at5 0x00000005#32 0x00000005#32 0x100#32) State.pc =
    some 0x00000104#32 := by decide
theorem test_bge_equal : shows (.bge 5 6 0xFFFFFFF8#32) (at5 0x00000005#32 0x00000005#32 0x100#32) State.pc =
    some 0x000000F8#32 := by decide
theorem test_bge_signed : shows (.bge 5 6 0xFFFFFFF8#32) (at5 0x80000000#32 0x7FFFFFFF#32 0x100#32) State.pc =
    some 0x00000104#32 := by decide
theorem test_jal : shows (.jal 7 12#32) (at5 0#32 0#32 4#32) (fun t => (t.readReg 7, t.pc)) =
    some (8#32, 0x10#32) := by decide
theorem test_jal_x0 : shows (.jal 0 0xFFFFFFF0#32) (at5 0#32 0#32 0x20#32) (fun t => (t.readReg 0, t.pc)) =
    some (0#32, 0x10#32) := by decide
theorem test_jalr_bit0 : shows (.jalr 7 5 0xFFFFFFFD#32) (at5 0x104#32 0#32 0x10#32)
    (fun t => (t.readReg 7, t.pc)) = some (0x14#32, 0x100#32) := by decide
theorem test_jalr_same_register : shows (.jalr 5 5 0#32) (at5 0x40#32 0#32 0x10#32)
    (fun t => (t.readReg 5, t.pc)) = some (0x14#32, 0x40#32) := by decide

/-- R44 in the reference configuration: pc, x2, x3, and a byte of each window. -/
theorem test_reset : State.reset.pc = 0#32 ∧ State.reset.readReg 2 = 0x7FFFFFDC#32 ∧
    State.reset.readReg 3 = 0x10000000#32 ∧ State.reset.readReg 31 = 0#32 ∧
    State.reset.readByte .data 0x10000000 = 0#8 ∧ State.reset.readByte .stack 0x7FFFFFFF = 0#8 := by
  decide

/-- The table's word of `addi x5, x6, -1` (part 2.1). -/
theorem test_decodeTableWord : decodeTableWord 32 0xFFF30293 = some (.addi 5 6 0xFFFFFFFF#32) := by decide
theorem test_decodeTableWord_refuses : decodeTableWord 32 0x00000073 = none := by decide

/-! # Witnesses: for every statement with hypotheses, inputs that meet them -/

/-- The outcome is a next state of which p holds. -/
def nextP (o : Host.Outcome State Fault Refusal) (p : State → Bool) : Bool :=
  match o with
  | .next t => p t
  | .fault _ => false
  | .refused _ => false

theorem of_nextP {o : Host.Outcome State Fault Refusal} {p : State → Bool} (h : nextP o p = true) :
    ∃ t, o = .next t ∧ p t = true := by
  cases o with
  | next t => exact ⟨t, rfl, h⟩
  | fault f => cases h
  | refused r => cases h

/-- i reads what the slot's occupant writes. -/
def readsSlot (i : Instr) (slot : Option Rec) : Bool :=
  match slotDest slot with
  | none => false
  | some r => r != 0#5 && (i.rs1 == some r || i.rs2 == some r)

theorem readsSlot_iff (i : Instr) (slot : Option Rec) :
    readsSlot i slot = true ↔ DependsOnSlot i slot := by
  unfold readsSlot DependsOnSlot Reads
  cases slotDest slot with
  | none => simp
  | some r =>
    simp only [Bool.and_eq_true, bne_iff_ne, Bool.or_eq_true, beq_iff_eq]
    constructor
    · exact fun h => ⟨r, h, rfl⟩
    · rintro ⟨q, h, hq⟩; cases hq; exact h

/-- `PredictionOk` as a check. -/
def predictionCheck (predOn : Bool) (i : Rec) : Bool :=
  (!i.instr.isJal || i.predTaken) && (!i.predTaken || i.instr.isJal || (i.instr.isBranch && predOn))

/-- `PipeInv` as a check. -/
def pipeCheck (s : State) : Bool :=
  (s.ftab.isEmpty && (s.slotS.isNone || (s.slotD.isNone && s.slotF.isNone)) &&
    (s.bubble == 0 || s.slotS.isSome) && decide (s.bubble ≤ 2) && s.win.w4 == slotDest s.slotD &&
    s.win.w3 == slotDest s.slotX && s.win.w2 == slotDest s.slotW &&
    decide (((inFlight s).map Rec.seq).Pairwise (· < ·)) &&
    (inFlight s).all fun i => decide (i.seq ≤ s.seqCtr) && predictionCheck s.predOn i) &&
  (s.slotF.isSome || s.slotS.isSome || s.slotX.isSome || (s.slotD.isNone && s.slotW.isNone) ||
    (s.ifetch s.pc).isNone) &&
  (s.slotF.all fun f => s.pc == f.fpc + 4#32 && s.ifetch f.fpc == some f.word) &&
  ((s.slotD.toList ++ s.slotS.toList).all fun i =>
    !i.instr.isBranch || !s.predOn || i.predTaken == s.predBit) &&
  (s.slotS.all fun i => s.fwdOn || s.bubble != 0 || !readsSlot i.instr s.slotX) && s.phase == .fetch

theorem pipeInv_of_check (s : State) (h : pipeCheck s = true) : PipeInv s := by
  simp only [pipeCheck, Bool.and_eq_true, Bool.or_eq_true, decide_eq_true_eq, List.all_eq_true,
    beq_iff_eq, Option.isNone_iff_eq_none, List.isEmpty_iff, Bool.not_eq_true',
    Option.all_eq_true] at h
  obtain ⟨⟨⟨⟨⟨⟨⟨⟨⟨⟨⟨⟨⟨h1, h2⟩, h3⟩, h4⟩, h5⟩, h6⟩, h7⟩, h8⟩, h9⟩, h10⟩, h11⟩, h12⟩, h13⟩, h14⟩ := h
  constructor
  case ftabEmpty => exact h1
  case parkedAlone => intro hs; exact h2.resolve_left hs
  case bubbleParked =>
    intro hb
    rcases h3 with h3 | h3
    · omega
    · intro hs; simp [hs] at h3
  case bubbleBound => exact h4
  case newestIsD => exact h5
  case index3IsX => exact h6
  case index2IsW => exact h7
  case programOrder => exact h8
  case counted => exact fun i hi => (h9 i hi).1
  case predictions =>
    intro i hi
    have := (h9 i hi).2
    revert this
    unfold predictionCheck PredictionOk
    cases i.instr.isJal <;> cases i.predTaken <;> cases i.instr.isBranch <;> cases s.predOn <;> simp
  case fetchEnded =>
    intro hF hS hX hDW
    simp only [hF, hS, hX, Option.isSome_none, Bool.false_eq_true, false_or] at h10
    rcases h10 with h10 | h10
    · rcases hDW with hD | hW
      · exact absurd h10.1 hD
      · exact absurd h10.2 hW
    · exact h10
  case fetchAhead => exact fun f hf => h11 f hf
  case sampled =>
    intro i hi hb hp
    have := h12 i (by simpa using hi)
    simpa [hb, hp] using this
  case waited =>
    intro i hi hf hb hd
    have := h13 i hi
    rw [← readsSlot_iff] at hd
    simp [hf, hb, hd] at this
  case phaseUnused => exact h14

/-- `PhaseInv` as a check. -/
def phaseCheck (s : State) : Bool :=
  s.win == Window.empty && s.ftab.isEmpty && s.bubble == 0 && s.predBit == Config.predInit &&
  s.slotS.isNone &&
  (s.slotF.all fun f => s.pc == f.fpc + 4#32 && s.ifetch f.fpc == some f.word) &&
  match s.phase with
  | .fetch => s.slotF.isNone && s.slotD.isNone && s.slotX.isNone && s.slotW.isNone
  | .decode => s.slotF.isSome && s.slotD.isNone && s.slotX.isNone && s.slotW.isNone
  | .execute => s.slotF.isNone && s.slotD.isSome && s.slotX.isNone && s.slotW.isNone
  | .memory => s.slotF.isNone && s.slotD.isNone && s.slotX.isSome && s.slotW.isNone
  | .writeback => s.slotF.isNone && s.slotD.isNone && s.slotX.isNone && s.slotW.isSome

theorem phaseInv_of_check (s : State) (h : phaseCheck s = true) : PhaseInv s := by
  simp only [phaseCheck, Bool.and_eq_true, beq_iff_eq, List.isEmpty_iff,
    Option.isNone_iff_eq_none, Option.all_eq_true] at h
  obtain ⟨⟨⟨⟨⟨⟨h1, h2⟩, h3⟩, h4⟩, h5⟩, h6⟩, h7⟩ := h
  refine ⟨h1, h2, h3, h4, h5, fun f hf => h6 f hf, ?_⟩
  unfold SlotsOfPhase
  cases hp : s.phase <;> rw [hp] at h7 <;>
    simpa [and_assoc, Option.isSome_iff_ne_none] using h7

/-- `Base` of a running state as a check. -/
def baseCheck (s : State) : Bool :=
  s.regs[0] == 0#32 && IMem.wf s.imem && Memory.wf s.data && Memory.wf s.stack && !s.halted &&
  s.fatalCode == 0#8 && s.fatalInfo == 0#32 && (s.errSeen || (s.errCode == 0#8 && s.errInfo == 0#32))

theorem base_of_check (s : State) (h : baseCheck s = true) : Base s ∧ s.halted = false := by
  simp only [baseCheck, Bool.and_eq_true, beq_iff_eq, Bool.or_eq_true, Bool.not_eq_true'] at h
  obtain ⟨⟨⟨⟨⟨⟨⟨h1, h2⟩, h3⟩, h4⟩, h5⟩, h6⟩, h7⟩, h8⟩ := h
  refine ⟨⟨h1, h2, h3, h4, ?_, fun _ => ⟨h6, h7⟩, ?_⟩, h5⟩
  · simp only [State.halted, Bool.or_eq_false_iff] at h5
    simp [h5.1]
  · intro he
    simpa [he] using h8

/-- A running pipelined state that passes the checks. -/
def goodPipe (s : State) : Bool := baseCheck s && s.params.cfgPipelined && pipeCheck s

theorem goodPipe_spec {s : State} (h : goodPipe s = true) : Inv s ∧ RunsPipelined s := by
  simp only [goodPipe, Bool.and_eq_true] at h
  obtain ⟨hb, hh⟩ := base_of_check s h.1.1
  refine ⟨⟨hb, ?_, fun _ _ => pipeInv_of_check s h.2, ?_⟩, hh, h.1.2⟩
  · intro hd; simp [State.halted, hd] at hh
  · intro _ hp; rw [h.1.2] at hp; cases hp

/-- A running non-pipelined state that passes the checks. -/
def goodPhase (s : State) : Bool := baseCheck s && !s.params.cfgPipelined && phaseCheck s

theorem goodPhase_spec {s : State} (h : goodPhase s = true) : Inv s ∧ s.halted = false := by
  simp only [goodPhase, Bool.and_eq_true, Bool.not_eq_true'] at h
  obtain ⟨hb, hh⟩ := base_of_check s h.1.1
  refine ⟨⟨hb, ?_, ?_, fun _ _ => phaseInv_of_check s h.2⟩, hh⟩
  · intro hd; simp [State.halted, hd] at hh
  · intro _ hp; rw [h.1.2] at hp; cases hp

/-! ## States -/

/-- A machine with a program at 0, `TERM_ADDR` past it, the flags as given. -/
def prog (pipe fwd pred : Bool) (ws : List Word) : State :=
  State.resetWith { Params.reference with
    termAddr := BitVec.ofNat 32 (4 * ws.length), cfgPipelined := pipe, cfgForward := fwd,
    cfgPredict := pred } (IMem.ofWords 0 ws) [] []

/-- A record in flight. -/
def inPipe (i : Instr) (fpc : Word) (seq : Nat) (pt : Bool) : Rec :=
  { newRec i fpc seq with predTaken := pt }

/-- Four words at 0, 4, 8 and 12: `beq x0, x0, 8`, `add x5, x5, x5`, `lw x5, 0(x3)`, `jal x1, 12`. -/
def words : List Word := [0x00000463#32, 0x005282B3#32, 0x0001A283#32, 0x00C000EF#32]

/-- A branch in D, decoded at 0 with `pt` assumed while the sticky bit was `pt`, and the word fetched next. -/
def branchInD (pred : Bool) (i : Instr) (pt : Bool) : State :=
  { prog true true pred words with
    slotD := some (inPipe i 0 1 pt), seqCtr := 1, predBit := pt,
    slotF := some (if pt then ⟨0x0001A283#32, 8#32⟩ else ⟨0x005282B3#32, 4#32⟩),
    pc := if pt then 12#32 else 8#32 }

/-- A word of the program in F, with a producer of x5 or nothing in D and in X. -/
def decodes (fwd pred bit : Bool) (f : Fetched) (d x : Option Instr) : State :=
  { prog true fwd pred words with
    slotF := some f, pc := f.fpc + 4#32, predBit := bit, seqCtr := 2,
    slotX := x.map fun i => inPipe i 0 1 false, slotD := d.map fun i => inPipe i 0 2 false,
    win := ⟨none, none, none, x.bind Instr.effDest, d.bind Instr.effDest⟩ }

/-- `add x5, x5, x5` at 4. -/
def addAt4 : Fetched := ⟨0x005282B3#32, 4#32⟩

/-- `add x5, x5, x5` parked, with its producer where `x` says: in X or in W. -/
def parked (fwd : Bool) (n : Nat) (inX : Bool) : State :=
  { prog true fwd false words with
    slotS := some (inPipe (.add 5 5 5) 4 2 false), seqCtr := 2, pc := 8#32, bubble := n,
    slotX := if inX then some (inPipe (.add 5 6 7) 0 1 false) else none,
    slotW := if inX then none else some (inPipe (.add 5 6 7) 0 1 false),
    win := if inX then ⟨none, none, none, some 5, none⟩ else ⟨none, none, some 5, none, none⟩ }

/-- Only W is full, and there is nothing to fetch. -/
def lastInW : State :=
  { prog true true true [0x007302B3#32] with
    slotW := some (inPipe (.add 5 6 7) 0 1 false), seqCtr := 1, pc := 4#32, bufY := 7#32,
    win := ⟨none, none, some 5, none, none⟩ }

/-- An undecodable word in F. -/
def badWord (w : Word) : State :=
  { prog true true true [w] with slotF := some ⟨w, 0#32⟩, pc := 4#32 }

/-- A load or store out of range in X and a division by zero in D. -/
def twoErrors (x : Instr) : State :=
  { prog true true true words with
    slotX := some (inPipe x 0 1 false), slotD := some (inPipe (.div 5 6 7) 4 2 false),
    bufZ := 0x0FFFFFFF#32, bufA := 1#32, seqCtr := 2, pc := 8#32,
    win := ⟨none, none, none, x.effDest, some 5⟩ }

/-- A store in X, about to write 0x78 at the first address of the data window, and `add` in D. -/
def storeInX (pipe : Bool) : State :=
  { prog pipe false false words with
    slotX := some (inPipe (.sb 3 5 0#32) 0 1 false),
    slotD := if pipe then some (inPipe (.add 5 6 7) 4 2 false) else none,
    phase := if pipe then .fetch else .memory,
    bufZ := 0x10000000#32, bufM := 0x78#32, seqCtr := 2, pc := 8#32,
    win := if pipe then ⟨none, none, none, none, some 5⟩ else Window.empty }

/-- An instruction in W, in both modes. -/
def retires (pipe : Bool) (i : Instr) : State :=
  { prog pipe false false words with
    slotW := some (inPipe i 0 1 false), bufY := 7#32, bufM := 16#32, seqCtr := 1, pc := 4#32,
    phase := if pipe then .fetch else .writeback,
    slotX := if pipe then some (inPipe (.sw 3 5 0#32) 0 2 false) else none }

/-! ## Encoding -/

theorem witness_DecodeOfEncode : (Instr.jal 31 (BitVec.ofInt 32 (-1048576))).WellFormed ∧
    (Instr.bge 31 0 (BitVec.ofInt 32 (-4096))).WellFormed ∧ (Instr.sd 1 2 2047#32).WellFormed ∧
    (Instr.lui 1 (BitVec.ofInt 32 (-524288))).WellFormed ∧ (Instr.rem 31 31 31).WellFormed := by
  decide

theorem witness_EncodeOfDecode : decode 0x7E735FE3#32 = .ok (.bge 6 7 4094#32) := by decide

/-! ## Memory accesses: the first and the last address of both windows, and the first ones past them -/

theorem witness_InWindow_data :
    InWindow Params.reference .data 0x10000000#32 8 ∧ InWindow Params.reference .data 0x100FFFFF#32 1 ∧
    InWindow Params.reference .data 0x100FFFFE#32 2 ∧ InWindow Params.reference .data 0x100FFFFC#32 4 ∧
    InWindow Params.reference .data 0x100FFFF8#32 8 := by
  refine ⟨⟨?_, ?_⟩, ⟨?_, ?_⟩, ⟨?_, ?_⟩, ⟨?_, ?_⟩, ⟨?_, ?_⟩⟩ <;> decide

theorem witness_InWindow_stack :
    InWindow Params.reference .stack 0x7FF00000#32 8 ∧
    InWindow Params.reference .stack 0x7FFFFFFF#32 1 ∧
    InWindow Params.reference .stack 0x7FFFFFFE#32 2 ∧
    InWindow Params.reference .stack 0x7FFFFFFC#32 4 ∧
    InWindow Params.reference .stack 0x7FFFFFF8#32 8 := by
  refine ⟨⟨?_, ?_, ?_⟩, ⟨?_, ?_, ?_⟩, ⟨?_, ?_, ?_⟩, ⟨?_, ?_, ?_⟩, ⟨?_, ?_, ?_⟩⟩ <;> decide

theorem witness_notInRange :
    ¬InRange Params.reference 0x10100000#32 1 ∧ ¬InRange Params.reference 0x100FFFFF#32 2 ∧
    ¬InRange Params.reference 0x7FFFFFFD#32 4 ∧ ¬InRange Params.reference 0x0FFFFFFF#32 8 := by
  refine ⟨?_, ?_, ?_, ?_⟩ <;> rintro ⟨g, h⟩ <;> cases g <;> revert h <;> unfold InWindow <;> decide

/-- The loads and stores of a base register and an immediate that reach those addresses; the space stored to
is in canonical form. -/
theorem witness_loads_and_stores :
    InWindow (at5 0 0x10100000#32 0).params .data
      ((at5 0 0x10100000#32 0).readReg 6 + BitVec.ofInt 32 (-8)) 8 ∧
    Memory.wf ((at5 0 0x10100000#32 0).space .data) = true ∧
    ¬InRange (at5 0 0x10100000#32 0).params ((at5 0 0x10100000#32 0).readReg 6 + 0#32) 1 := by
  refine ⟨⟨?_, ?_⟩, ?_, ?_⟩
  · decide
  · decide
  · decide
  · rintro ⟨g, h⟩
    cases g <;> revert h <;> unfold InWindow <;> decide

theorem witness_StoreThenLoad (n : Nat) (hn : n = 1 ∨ n = 2 ∨ n = 4 ∨ n = 8) :
    Memory.wf ((at5 1 0x10000010#32 0).space .data) = true ∧ (7#5 : Reg) ≠ 0#5 ∧
    InWindow (at5 1 0x10000010#32 0).params .data ((at5 1 0x10000010#32 0).readReg 6 + 0#32) n := by
  refine ⟨by decide, by decide, ?_⟩
  rcases hn with rfl | rfl | rfl | rfl <;> constructor <;> decide

theorem witness_divisors : (at5 7 0 0).readReg 6 = 0#32 ∧ (at5 7 2 0).readReg 6 ≠ 0#32 := by decide

/-! ## Whole-machine statements -/

theorem witness_InvariantAtReset : IMem.wf (IMem.ofWords 0 words) = true ∧ Memory.wf mem41 = true ∧
    Memory.wf [] = true := by decide

theorem witness_StepKeepsInvariant_pipelined : Inv (parked false 1 true) := (goodPipe_spec (by decide)).1
theorem witness_StepKeepsInvariant_phased : Inv (retires false (.jal 1 12#32)) :=
  (goodPhase_spec (by decide)).1

theorem witness_TerminalBits_done : ∃ t, stepN 3 { State.reset with done := true } = .next t ∧
    t.done = true := of_nextP (by decide)
theorem witness_TerminalBits_fatal : ∃ t, stepN 3 { State.reset with fatal := true } = .next t ∧
    t.fatal = true := of_nextP (by decide)
theorem witness_TerminalBits_running :
    ∃ t, stepN 2 { prog false false false words with errSeen := true } = .next t ∧
      t.errSeen = true := of_nextP (by decide)

theorem witness_FetchIsNeverChanged : ∃ t, stepN 2 (prog true true true words) = .next t ∧
    (t.pc == 8#32) = true := of_nextP (by decide)

theorem witness_RawFlags_next : (prog false true false words).params.cfgPipelined = false ∧
    ∃ t, step (prog false true false words) = .next t ∧ (t.pc == 4#32) = true :=
  ⟨rfl, of_nextP (by decide)⟩
theorem witness_RawFlags_fault : ({ State.reset with phase := .decode } : State).params.cfgPipelined = false ∧
    step { State.reset with phase := .decode } = .fault (.slotEmpty .decode) := ⟨rfl, rfl⟩

theorem witness_FiveSteps : ReadyToFetch (prog false false false words) ∧
    (prog false false false words).ifetch (prog false false false words).pc = some 0x00000463#32 ∧
    decode 0x00000463#32 = .ok (.beq 0 0 8#32) := by
  refine ⟨?_, ?_, ?_⟩
  · unfold ReadyToFetch; decide
  · decide
  · decide

theorem witness_PlacedWord : (Instr.sd 2 6 (BitVec.ofInt 32 (-8))).WellFormed ∧
    State.reset.params.cfgPipelined = false := by decide
/-- The reset state is idle already: placing a word there changes `IMEM` and `TERM_ADDR` only. -/
theorem test_withFetchWord_reset : State.reset.withFetchWord 32 0x00500093 =
    { State.reset with
      imem := [(0, 0x00500093#32)], params := { Params.reference with termAddr := 4#32 } } := by decide
/-- DOC's example `addi x1, x0, 5` (R141), placed on reset: run whole by the fifth step. -/
theorem test_placed_runs : nextP (stepN 5 (State.reset.withFetchWord 32 0x00500093))
    (fun t => t.readReg 1 == 5#32 && t.pc == 4#32 && t.phase == .fetch) = true := by decide
theorem witness_PlacedWordPipelined : (Instr.addi 1 0 5#32).WellFormed ∧
    (prog true true true []).imem = [] ∧ (prog true true true []).params.cfgPipelined = true := by decide

theorem witness_FetchPhase_terminal : State.reset.halted = false ∧ State.reset.params.cfgPipelined = false ∧
    State.reset.phase = .fetch ∧ State.reset.pc = State.reset.params.termAddr := by decide
theorem witness_FetchPhase_unmapped (s : State) (h : s = (prog false false false words).setPc 2#32) :
    s.halted = false ∧ s.params.cfgPipelined = false ∧ s.phase = .fetch ∧
    s.pc ≠ s.params.termAddr ∧ IMem.lookup s.imem s.pc.toNat = none := by subst h; decide
theorem witness_FetchPhase_mapped (s : State) (h : s = prog false false false words) :
    s.halted = false ∧ s.params.cfgPipelined = false ∧ s.phase = .fetch ∧
    s.pc ≠ s.params.termAddr ∧ IMem.lookup s.imem s.pc.toNat = some 0x00000463#32 := by subst h; decide

theorem witness_NonPipelinedDecodeError (w : Word) (h : w = 0x00000073#32 ∨ w = 0x00001067#32) :
    ReadyToFetch (prog false false false [w]) ∧
    (prog false false false [w]).ifetch (prog false false false [w]).pc = some w ∧
    ∀ i, decode w ≠ .ok i := by
  rcases h with rfl | rfl
  · refine ⟨?_, ?_, ?_⟩
    · unfold ReadyToFetch; decide
    · decide
    · intro i; rw [show decode 0x00000073#32 = .unknownOpcode by decide]; simp
  · refine ⟨?_, ?_, ?_⟩
    · unfold ReadyToFetch; decide
    · decide
    · intro i; rw [show decode 0x00001067#32 = .unknownFunct by decide]; simp

/-! ## The step's writers -/

theorem witness_RegistersWritten_pipelined : (retires true (.add 5 6 7)).halted = false ∧
    retiring (retires true (.add 5 6 7)) = some (inPipe (.add 5 6 7) 0 1 false) ∧
    ∃ t, step (retires true (.add 5 6 7)) = .next t ∧ (t.readReg 5 == 7#32) = true :=
  ⟨rfl, rfl, of_nextP (by decide)⟩
theorem witness_RegistersWritten_phased : (retires false (.jal 0 12#32)).halted = false ∧
    retiring (retires false (.jal 0 12#32)) = some (inPipe (.jal 0 12#32) 0 1 false) ∧
    (Instr.jal 0 12#32).effDest ≠ some 5#5 ∧
    ∃ t, step (retires false (.jal 0 12#32)) = .next t ∧ (t.pc == 16#32) = true :=
  ⟨rfl, rfl, by decide, of_nextP (by decide)⟩

theorem witness_BytesWritten_pipelined : Base (storeInX true) ∧ (storeInX true).halted = false ∧
    ∃ t, step (storeInX true) = .next t ∧
      (t.readByte .data 0x10000000 != (storeInX true).readByte .data 0x10000000) = true :=
  ⟨(base_of_check _ (by decide)).1, rfl, of_nextP (by decide)⟩
theorem witness_BytesWritten_phased : Base (storeInX false) ∧ (storeInX false).halted = false ∧
    ∃ t, step (storeInX false) = .next t ∧
      (t.readByte .data 0x10000000 != (storeInX false).readByte .data 0x10000000) = true :=
  ⟨(base_of_check _ (by decide)).1, rfl, of_nextP (by decide)⟩

theorem witness_PipelinedPcWriters : RunsPipelined (branchInD true (.beq 0 0 8#32) false) ∧
    ∃ t, step (branchInD true (.beq 0 0 8#32) false) = .next t ∧ (t.pc == 8#32) = true :=
  ⟨(goodPipe_spec (by decide)).2, of_nextP (by decide)⟩

/-- `add` in D, on its operands in A and B: v is the same machine with pc at the instruction. -/
theorem witness_PipelinedStages_execute : RunsPipelined (storeInX true) ∧
    (storeInX true).slotD = some (inPipe (.add 5 6 7) 4 2 false) ∧
    ((storeInX true).setPc 4#32).operandA (.add 5 6 7) = (storeInX true).bufA ∧
    ((storeInX true).setPc 4#32).operandB (.add 5 6 7) = (storeInX true).bufB ∧
    (∃ t, step (storeInX true) = .next t ∧ (t.pc == 12#32) = true) ∧
    ∃ u, exec (.add 5 6 7) ((storeInX true).setPc 4#32) = .next u ∧ (u.bufZ == 0#32) = true :=
  ⟨(goodPipe_spec (by decide)).2, rfl, by decide, by decide, of_nextP (by decide), of_nextP (by decide)⟩
/-- `sb x5, 0(x3)` in X: v is the same machine with 0x78 in x5, and x3 the window's first address. -/
theorem witness_PipelinedStages_memory : (storeInX true).slotX = some (inPipe (.sb 3 5 0#32) 0 1 false) ∧
    ((storeInX true).writeReg 5 0x78#32).data = (storeInX true).data ∧
    ∃ u, exec (.sb 3 5 0#32) ((storeInX true).writeReg 5 0x78#32) = .next u ∧
      (u.bufZ == (storeInX true).bufZ && u.bufM == (storeInX true).bufM) = true :=
  ⟨rfl, rfl, of_nextP (by decide)⟩

/-! ## Control hazards -/

theorem witness_PredictorBit_changes : (branchInD true (.beq 0 0 8#32) false).halted = false ∧
    ∃ t, step (branchInD true (.beq 0 0 8#32) false) = .next t ∧
      (t.predBit != (branchInD true (.beq 0 0 8#32) false).predBit) = true :=
  ⟨rfl, of_nextP (by decide)⟩
theorem witness_PredictorBit_resolved (pt : Bool) : Inv (branchInD true (.beq 0 0 8#32) pt) ∧
    RunsPipelined (branchInD true (.beq 0 0 8#32) pt) ∧
    (branchInD true (.beq 0 0 8#32) pt).predOn = true ∧
    (branchInD true (.beq 0 0 8#32) pt).slotD = some (inPipe (.beq 0 0 8#32) 0 1 pt) ∧
    branchOutcome (.beq 0 0 8#32) (branchInD true (.beq 0 0 8#32) pt).bufA
      (branchInD true (.beq 0 0 8#32) pt).bufB = some true ∧
    ∃ t, step (branchInD true (.beq 0 0 8#32) pt) = .next t ∧ t.predBit = true := by
  refine ⟨(goodPipe_spec ?_).1, (goodPipe_spec ?_).2, ?_, rfl, ?_, of_nextP ?_⟩ <;>
    cases pt <;> decide

/-- The four cases: taken or not, as assumed or not. -/
theorem witness_Resolution (pt : Bool) :
    (branchInD true (.beq 0 0 8#32) pt).slotD = some (inPipe (.beq 0 0 8#32) 0 1 pt) ∧
    branchOutcome (.beq 0 0 8#32) (branchInD true (.beq 0 0 8#32) pt).bufA
      (branchInD true (.beq 0 0 8#32) pt).bufB = some true ∧
    (branchInD true (.bne 0 0 8#32) pt).slotD = some (inPipe (.bne 0 0 8#32) 0 1 pt) ∧
    branchOutcome (.bne 0 0 8#32) (branchInD true (.bne 0 0 8#32) pt).bufA
      (branchInD true (.bne 0 0 8#32) pt).bufB = some false := by
  refine ⟨rfl, ?_, rfl, ?_⟩ <;> cases pt <;> decide

theorem witness_MispredictionFlushes_taken (pred : Bool) : Inv (branchInD pred (.beq 0 0 8#32) false) ∧
    RunsPipelined (branchInD pred (.beq 0 0 8#32) false) := by
  refine goodPipe_spec ?_
  cases pred <;> decide
theorem witness_MispredictionFlushes_notTaken : Inv (branchInD true (.bne 0 0 8#32) true) ∧
    RunsPipelined (branchInD true (.bne 0 0 8#32) true) := goodPipe_spec (by decide)

theorem witness_JalrRedirects : Inv (branchInD true (.jalr 0 1 0#32) false) ∧
    RunsPipelined (branchInD true (.jalr 0 1 0#32) false) ∧ (Instr.jalr 0 1 0#32).isJalr = true := by
  refine ⟨(goodPipe_spec ?_).1, (goodPipe_spec ?_).2, ?_⟩ <;> decide

theorem noFlush_of (s : State) (h : s.slotD = none ∨ s.slotD = some (inPipe (.add 5 6 7) 0 2 false) ∨
    s.slotD = some (inPipe (.lw 5 3 0#32) 0 2 false)) : NoFlush s := by
  intro i hi
  rcases h with h | h | h
  · rw [h] at hi; cases hi
  · rw [h] at hi; cases hi; exact ⟨rfl, fun tk h => by cases h⟩
  · rw [h] at hi; cases hi; exact ⟨rfl, fun tk h => by cases h⟩

theorem witness_TakenPrediction_jal :
    Inv (decodes true true false ⟨0x00C000EF#32, 12#32⟩ (some (.add 5 6 7)) none) ∧
    RunsPipelined (decodes true true false ⟨0x00C000EF#32, 12#32⟩ (some (.add 5 6 7)) none) ∧
    NoFlush (decodes true true false ⟨0x00C000EF#32, 12#32⟩ (some (.add 5 6 7)) none) ∧
    decode 0x00C000EF#32 = .ok (.jal 1 12#32) ∧ (Instr.jal 1 12#32).isJal = true :=
  ⟨(goodPipe_spec (by decide)).1, (goodPipe_spec (by decide)).2, noFlush_of _ (.inr (.inl rfl)), by decide,
    rfl⟩
theorem witness_TakenPrediction_branch :
    Inv (decodes true true true ⟨0x00000463#32, 0#32⟩ none none) ∧
    RunsPipelined (decodes true true true ⟨0x00000463#32, 0#32⟩ none none) ∧
    NoFlush (decodes true true true ⟨0x00000463#32, 0#32⟩ none none) ∧
    decode 0x00000463#32 = .ok (.beq 0 0 8#32) ∧ (Instr.beq 0 0 8#32).isBranch = true ∧
    (decodes true true true ⟨0x00000463#32, 0#32⟩ none none).predOn = true ∧
    (decodes true true true ⟨0x00000463#32, 0#32⟩ none none).predBit = true :=
  ⟨(goodPipe_spec (by decide)).1, (goodPipe_spec (by decide)).2, noFlush_of _ (.inl rfl), by decide,
    rfl, rfl, rfl⟩
theorem witness_NotTakenPrediction :
    Inv (decodes true true false ⟨0x00000463#32, 0#32⟩ none none) ∧
    RunsPipelined (decodes true true false ⟨0x00000463#32, 0#32⟩ none none) ∧
    NoFlush (decodes true true false ⟨0x00000463#32, 0#32⟩ none none) ∧
    ¬((Instr.beq 0 0 8#32).isJal = true ∨ ((Instr.beq 0 0 8#32).isBranch = true ∧
      (decodes true true false ⟨0x00000463#32, 0#32⟩ none none).predOn = true ∧
      (decodes true true false ⟨0x00000463#32, 0#32⟩ none none).predBit = true)) :=
  ⟨(goodPipe_spec (by decide)).1, (goodPipe_spec (by decide)).2, noFlush_of _ (.inl rfl), by decide⟩

/-! ## Data hazards -/

/-- One state for each line of the stall table, and its count (R252, R255, R263). -/
def stallCases : List (State × Nat) :=
  [(decodes false false false addAt4 (some (.add 5 6 7)) none, 2),
   (decodes false false false addAt4 none (some (.add 5 6 7)), 1),
   (decodes false false false addAt4 none none, 0),
   (decodes true false false addAt4 (some (.lw 5 3 0#32)) none, 1),
   (decodes true false false addAt4 (some (.add 5 6 7)) none, 0),
   (decodes true false false addAt4 none (some (.lw 5 3 0#32)), 0)]

/-- `StallCount` as a check. -/
def stallCheck (s : State) (i : Instr) (n : Nat) : Bool :=
  if s.fwdOn then
    if readsSlot i s.slotD then
      if s.slotD.all fun p => p.instr.isLoad then n == 1 else n == 0
    else n == 0
  else if readsSlot i s.slotD then n == 2
  else if readsSlot i s.slotX then n == 1
  else n == 0

theorem stallCount_of_check (s : State) (i : Instr) (n : Nat) (h : stallCheck s i n = true) :
    StallCount s i n := by
  unfold stallCheck at h
  simp only [StallCount, ← readsSlot_iff]
  refine ⟨?_, ?_, ?_, ?_, ?_, ?_⟩
  · intro a b; simpa [a, b] using h
  · intro a b c; simpa [a, b, c] using h
  · intro a b c; simpa [a, b, c] using h
  · intro a b c
    have : (s.slotD.all fun p => p.instr.isLoad) = true := by
      cases hD : s.slotD with
      | none => rfl
      | some p => exact c p hD
    simpa [a, b, this] using h
  · intro a b c
    have : (s.slotD.all fun p => p.instr.isLoad) = false := by
      cases hD : s.slotD with
      | none => rw [hD] at b; cases b
      | some p => exact c p hD
    simpa [a, b, this] using h
  · intro a b; simpa [a, b] using h

theorem witness_StallCounts : ∀ c ∈ stallCases, Inv c.1 ∧ RunsPipelined c.1 ∧ NoFlush c.1 ∧
    c.1.slotF = some addAt4 ∧ decode addAt4.word = .ok (.add 5 5 5) ∧
    StallCount c.1 (.add 5 5 5) c.2 := by
  have hd : decode addAt4.word = .ok (.add 5 5 5) := by decide
  have key : ∀ s n, goodPipe s = true → stallCheck s (.add 5 5 5) n = true → s.slotF = some addAt4 →
      (s.slotD = none ∨ s.slotD = some (inPipe (.add 5 6 7) 0 2 false) ∨
        s.slotD = some (inPipe (.lw 5 3 0#32) 0 2 false)) →
      Inv s ∧ RunsPipelined s ∧ NoFlush s ∧ s.slotF = some addAt4 ∧
        decode addAt4.word = .ok (.add 5 5 5) ∧ StallCount s (.add 5 5 5) n := fun s n hg hc hf hn =>
    ⟨(goodPipe_spec hg).1, (goodPipe_spec hg).2, noFlush_of s hn, hf, hd, stallCount_of_check s _ n hc⟩
  intro c hc
  simp only [stallCases, List.mem_cons, List.not_mem_nil, or_false] at hc
  rcases hc with rfl | rfl | rfl | rfl | rfl | rfl <;>
    exact key _ _ (by decide) (by decide) rfl (by decide)

theorem witness_Parked_waits : Inv (parked false 1 true) ∧ RunsPipelined (parked false 1 true) ∧
    (parked false 1 true).slotS = some (inPipe (.add 5 5 5) 4 2 false) ∧
    0 < (parked false 1 true).bubble := by
  refine ⟨(goodPipe_spec ?_).1, (goodPipe_spec ?_).2, rfl, ?_⟩ <;> decide
theorem witness_Parked_promoted (fwd : Bool) : Inv (parked fwd 0 false) ∧ RunsPipelined (parked fwd 0 false) ∧
    (parked fwd 0 false).bubble = 0 := by
  refine ⟨(goodPipe_spec ?_).1, (goodPipe_spec ?_).2, rfl⟩ <;> cases fwd <;> decide

/-- D is left full by a decode with forwarding from X, and by a promotion. -/
theorem witness_OperandsAreCurrent_decode :
    Inv (decodes true false false addAt4 (some (.add 5 6 7)) none) ∧
    RunsPipelined (decodes true false false addAt4 (some (.add 5 6 7)) none) ∧
    ∃ t, step (decodes true false false addAt4 (some (.add 5 6 7)) none) = .next t ∧
      (!t.halted && t.slotD.isSome && readsSlot (.add 5 5 5) t.slotX) = true :=
  ⟨(goodPipe_spec (by decide)).1, (goodPipe_spec (by decide)).2, of_nextP (by decide)⟩
theorem witness_OperandsAreCurrent_promotion : Inv (parked false 0 false) ∧
    ∃ t, step (parked false 0 false) = .next t ∧ (!t.halted && t.slotD.isSome) = true :=
  ⟨(goodPipe_spec (by decide)).1, of_nextP (by decide)⟩

/-! ## Completion, fatal error, log order, the two modes -/

theorem witness_LastWriteback : RunsPipelined lastInW ∧
    lastInW.slotW = some (inPipe (.add 5 6 7) 0 1 false) ∧ lastInW.slotF = none ∧ lastInW.slotD = none ∧
    lastInW.slotX = none ∧ lastInW.slotS = none ∧ lastInW.bubble = 0 :=
  ⟨(goodPipe_spec (by decide)).2, rfl, rfl, rfl, rfl, rfl, rfl⟩
theorem witness_DoneOnlyWhenDrained_writeback : Inv lastInW ∧
    ∃ t, step lastInW = .next t ∧ t.done = true := ⟨(goodPipe_spec (by decide)).1, of_nextP (by decide)⟩
theorem witness_DoneOnlyWhenDrained_fetch : Inv (prog true true true []) ∧
    RunsPipelined (prog true true true []) ∧
    ∃ t, step (prog true true true []) = .next t ∧ t.done = true :=
  ⟨(goodPipe_spec (by decide)).1, (goodPipe_spec (by decide)).2, of_nextP (by decide)⟩

theorem witness_PipelinedDecodeError (w : Word) (h : w = 0x00000073#32 ∨ w = 0x00001067#32) :
    Inv (badWord w) ∧ RunsPipelined (badWord w) ∧ NoFlush (badWord w) ∧
    (badWord w).slotF = some ⟨w, 0#32⟩ ∧ ∀ i, decode w ≠ .ok i := by
  refine ⟨(goodPipe_spec ?_).1, (goodPipe_spec ?_).2, noFlush_of _ (.inl rfl), rfl, ?_⟩
  · rcases h with rfl | rfl <;> decide
  · rcases h with rfl | rfl <;> decide
  · exact fun i => (witness_NonPipelinedDecodeError w h).2.2 i

theorem twoErrors_divides (i : Instr) : DivideError (twoErrors i) 4#32 :=
  ⟨_, 5, 6, 7, rfl, rfl, rfl, .inl rfl⟩
theorem twoErrors_range (i : Instr) (n : Nat) :
    ¬InRange (twoErrors i).params (twoErrors i).bufZ n := by
  rintro ⟨g, h⟩
  have hz : (twoErrors i).bufZ.toNat = 0x0FFFFFFF := rfl
  have h1 : (twoErrors i).params.dataLo.toNat = 0x10000000 := rfl
  have h2 : (twoErrors i).params.stackLo.toNat = 0x7FF00000 := rfl
  cases g <;> simp only [InWindow, hz, h1, h2] at h <;> omega
theorem witness_OlderError_load : RunsPipelined (twoErrors (.lw 6 0 0#32)) ∧
    RangeError (twoErrors (.lw 6 0 0#32)) .loadRange ∧
    ∃ t, step (twoErrors (.lw 6 0 0#32)) = .next t ∧ t.errSeen = true :=
  ⟨(goodPipe_spec (by decide)).2, ⟨_, 4, rfl, twoErrors_range _ 4, .inl ⟨rfl, rfl⟩⟩,
    of_nextP (by decide)⟩
theorem witness_OlderError_store : RunsPipelined (twoErrors (.sd 0 6 0#32)) ∧
    RangeError (twoErrors (.sd 0 6 0#32)) .storeRange ∧
    ∃ t, step (twoErrors (.sd 0 6 0#32)) = .next t ∧ t.errSeen = true :=
  ⟨(goodPipe_spec (by decide)).2, ⟨_, 8, rfl, twoErrors_range _ 8, .inr ⟨rfl, rfl⟩⟩,
    of_nextP (by decide)⟩
/-- One error alone, of either stage, and none: the other stage's slot is empty. -/
theorem witness_StepLogsItsErrors_range :
    (∃ t, step { twoErrors (.lw 6 0 0#32) with slotD := none } = .next t ∧ t.errSeen = true) ∧
    RangeError { twoErrors (.lw 6 0 0#32) with slotD := none } .loadRange ∧
    ∀ a, ¬DivideError { twoErrors (.lw 6 0 0#32) with slotD := none } a := by
  refine ⟨of_nextP (by decide), ⟨_, 4, rfl, twoErrors_range (.lw 6 0 0#32) 4, .inl ⟨rfl, rfl⟩⟩, ?_⟩
  rintro a ⟨d, _, _, _, h, _⟩
  cases h
theorem witness_StepLogsItsErrors_divide :
    (∃ t, step { twoErrors (.lw 6 0 0#32) with slotX := none } = .next t ∧ t.errSeen = true) ∧
    DivideError { twoErrors (.lw 6 0 0#32) with slotX := none } 4#32 ∧
    ∀ c, ¬RangeError { twoErrors (.lw 6 0 0#32) with slotX := none } c := by
  refine ⟨of_nextP (by decide), ⟨_, 5, 6, 7, rfl, rfl, rfl, .inl rfl⟩, ?_⟩
  rintro a ⟨d, _, h, _⟩
  cases h
theorem witness_StepLogsItsErrors_none : RunsPipelined lastInW ∧
    (∃ t, step lastInW = .next t ∧ t.errSeen = false) ∧
    (∀ c, ¬RangeError lastInW c) ∧ ∀ a, ¬DivideError lastInW a := by
  refine ⟨(goodPipe_spec (by decide)).2, ?_, ?_, ?_⟩
  · obtain ⟨t, h, ht⟩ := of_nextP (o := step lastInW) (p := fun t => !t.errSeen) (by decide)
    exact ⟨t, h, by simpa using ht⟩
  · rintro a ⟨d, _, h, _⟩; cases h
  · rintro a ⟨d, _, _, _, h, _⟩; cases h

theorem witness_EmptyPipeline (s : State) (h : s = prog true true true []) : RunsPipelined s ∧
    s.slotF = none ∧ s.slotD = none ∧ s.slotX = none ∧ s.slotW = none ∧ s.slotS = none ∧ s.bubble = 0 ∧
    s.ifetch s.pc = none := by
  subst h
  exact ⟨(goodPipe_spec (by decide)).2, by decide⟩

theorem witness_PipelinedRunsAgree_done (fwd pred : Bool) :
    ∃ t, stepN 6 (startOf { Params.reference with termAddr := 4 } (IMem.ofWords 0 [0x0001A283#32]) [] [] false fwd
      pred false) = .next t ∧ t.done = true := by
  refine of_nextP ?_
  cases fwd <;> cases pred <;> decide
theorem witness_PipelinedRunsAgree_fatal (fwd pred : Bool) :
    ∃ t, stepN 7 (startOf { Params.reference with termAddr := 8 } (IMem.ofWords 0 [0x0001A283#32, 0x00000073#32])
      [] [] false fwd pred false) = .next t ∧ t.fatal = true := by
  refine of_nextP ?_
  cases fwd <;> cases pred <;> decide

end Sys2Proof.Tests
end

section
/-! PROOFS. One equation per case of `step`, of the phases of the non-pipelined machine (R200, R221 to R226)
and of the stage procedures that look at a condition (R68, R69, R304). -/

namespace Sys2Proof.Machine

/-! ## `step` and `stepN` -/

theorem step_halted (s : State) (h : s.halted = true) : step s = .next s := by
  simp [step, h]

theorem step_phased (s : State) (h : s.halted = false) (hp : s.params.cfgPipelined = false) :
    step s = phaseStep s := by
  simp [step, h, hp]

theorem step_pipelined (s : State) (h : s.halted = false) (hp : s.params.cfgPipelined = true) :
    step s = pipelinedStep s := by
  simp [step, h, hp]

/-- Over every machine, since the field types of `core` hide the state from rewriting. -/
theorem coreRun_succ_of_next (M : Host.Core) (n : Nat) (s t : M.State) (h : M.step s = .next t) :
    M.run (n + 1) s = M.run n t := by
  simp [Host.Core.run, h]

theorem stepN_succ_of_next (n : Nat) (s t : State) (h : step s = .next t) :
    stepN (n + 1) s = stepN n t :=
  coreRun_succ_of_next Sys2Proof.core n s t h

/-! ## The phases -/

theorem phaseStep_fetch (s : State) (h : s.phase = .fetch) : phaseStep s = phaseFetch s.beginStep := by
  simp [phaseStep, h]

theorem phaseStep_decode (s : State) (h : s.phase = .decode) : phaseStep s = phaseDecode s.beginStep := by
  simp [phaseStep, h]

theorem phaseStep_execute (s : State) (h : s.phase = .execute) :
    phaseStep s = phaseExecute s.beginStep := by
  simp [phaseStep, h]

theorem phaseStep_memory (s : State) (h : s.phase = .memory) : phaseStep s = phaseMemory s.beginStep := by
  simp [phaseStep, h]

theorem phaseStep_writeback (s : State) (h : s.phase = .writeback) :
    phaseStep s = phaseWriteback s.beginStep := by
  simp [phaseStep, h]

theorem phaseFetch_nothing (s : State) (h : s.ifetch s.pc = none) :
    phaseFetch s = .next (s.emit .ifNone).finish := by
  simp [phaseFetch, h]

theorem phaseFetch_word (s : State) (w : Word) (h : s.ifetch s.pc = some w) :
    phaseFetch s = .next ((fetchWord w s).setPhase .decode) := by
  simp [phaseFetch, h]

theorem phaseDecode_empty (s : State) (h : s.slotF = none) :
    phaseDecode s = .fault (.slotEmpty .decode) := by
  simp [phaseDecode, h]

theorem phaseDecode_ok (s : State) (f : Fetched) (i : Instr) (h : s.slotF = some f)
    (hd : decode f.word = .ok i) : phaseDecode s = .next (phaseDecodeInstr i f.fpc s.emptyF) := by
  simp [phaseDecode, h, hd]

theorem phaseDecode_unknownOpcode (s : State) (f : Fetched) (h : s.slotF = some f)
    (hd : decode f.word = .unknownOpcode) :
    phaseDecode s = .next (s.emptyF.raiseFatal .unknownOpcode f.word) := by
  simp [phaseDecode, h, hd]

theorem phaseDecode_unknownFunct (s : State) (f : Fetched) (h : s.slotF = some f)
    (hd : decode f.word = .unknownFunct) :
    phaseDecode s = .next (s.emptyF.raiseFatal .unknownFunct f.word) := by
  simp [phaseDecode, h, hd]

theorem phaseExecute_empty (s : State) (h : s.slotD = none) :
    phaseExecute s = .fault (.slotEmpty .execute) := by
  simp [phaseExecute, h]

theorem phaseExecute_some (s : State) (i : Rec) (h : s.slotD = some i) :
    phaseExecute s = .next ((branchAtExecute (executeStage i s).1
      (((executeStage i s).2.emit (.ex (executeStage i s).1)).moveToX (executeStage i s).1)).setPhase
        .memory) := by
  simp [phaseExecute, h]

theorem phaseMemory_empty (s : State) (h : s.slotX = none) :
    phaseMemory s = .fault (.slotEmpty .memory) := by
  simp [phaseMemory, h]

theorem phaseMemory_some (s : State) (i : Rec) (h : s.slotX = some i) :
    phaseMemory s = .next ((((memoryStage i s).emit (.mem i)).moveToW i).setPhase .writeback) := by
  simp [phaseMemory, h]

theorem phaseWriteback_empty (s : State) (h : s.slotW = none) :
    phaseWriteback s = .fault (.slotEmpty .writeback) := by
  simp [phaseWriteback, h]

theorem phaseWriteback_some (s : State) (i : Rec) (h : s.slotW = some i) :
    phaseWriteback s =
      .next ((jumpAtWriteback i ((writeback i s).emit (.wb i))).emptyW.setPhase .fetch) := by
  simp [phaseWriteback, h]

/-! ## The stage procedures that look at a condition -/

theorem executeDivide_zero (f : Params → Word → Word → Word) (r : Rec) (s : State)
    (h : s.bufB = 0#32) :
    executeDivide f r s = (r, (s.log .divZero r.fpc).setZ (f s.params s.bufA s.bufB)) := by
  simp [executeDivide, h]

theorem executeDivide_nonzero (f : Params → Word → Word → Word) (r : Rec) (s : State)
    (h : s.bufB ≠ 0#32) : executeDivide f r s = (r, s.setZ (f s.params s.bufA s.bufB)) := by
  simp [executeDivide, h]

theorem memoryLoad_outOfRange (n : Nat) (ext : BitVec (8 * n) → Word) (s : State)
    (h : Params.accessRegion s.params s.bufZ n = none) :
    memoryLoad n ext s = (s.setY 0#32).log .loadRange s.bufZ := by
  simp [memoryLoad, State.memRead, h]

theorem memoryLoad_inRange (n : Nat) (ext : BitVec (8 * n) → Word) (s : State) (g : Region)
    (h : Params.accessRegion s.params s.bufZ n = some g) :
    memoryLoad n ext s = s.setY (ext (BitVec.ofNat (8 * n)
      (leValue (Memory.readBytes (s.space g) s.bufZ.toNat n)))) := by
  simp [memoryLoad, State.memRead, h]

theorem memoryStore_outOfRange (n : Nat) (val : Word → BitVec (8 * n)) (s : State)
    (h : Params.accessRegion s.params s.bufZ n = none) :
    memoryStore n val s = (s.log .storeRange s.bufZ).setY s.bufZ := by
  simp [memoryStore, State.memWrite, h]

theorem memoryStore_inRange (n : Nat) (val : Word → BitVec (8 * n)) (s : State) (g : Region)
    (h : Params.accessRegion s.params s.bufZ n = some g) :
    memoryStore n val s = (s.setSpace g
      (Memory.writeBytes (s.space g) s.bufZ.toNat (leBytes n (val s.bufM)))).setY s.bufZ := by
  simp [memoryStore, State.memWrite, h]

end Sys2Proof.Machine
end

section
/-! PROOFS. The raw flags `cfg_forward` and `cfg_predict` are invisible to the non-pipelined machine (R9, R306,
D21): every procedure it calls commutes with replacing them. -/

namespace Sys2Proof.Machine

open Sys2Proof.Claims

/-- The outcome with its next state, where it has one, changed by `g`. -/
def mapNext (g : State → State) (o : Host.Outcome State Fault Refusal) :
    Host.Outcome State Fault Refusal :=
  match o with
  | .next s => .next (g s)
  | .fault f => .fault f
  | .refused r => .refused r

section
variable (fwd pred : Bool) (r : Rec) (s : State)

/-! ## The stage procedures -/

theorem executeDivide_withRawFlags (f : Params → Word → Word → Word)
    (hf : f (withRawFlags s fwd pred).params s.bufA s.bufB = f s.params s.bufA s.bufB) :
    executeDivide f r (withRawFlags s fwd pred) =
      ((executeDivide f r s).1, withRawFlags (executeDivide f r s).2 fwd pred) := by
  by_cases h : s.bufB = 0#32
  · rw [executeDivide_zero f r s h, executeDivide_zero f r (withRawFlags s fwd pred) h]
    exact congrArg (fun v => (r, ((withRawFlags s fwd pred).log .divZero r.fpc).setZ v)) hf
  · rw [executeDivide_nonzero f r s h, executeDivide_nonzero f r (withRawFlags s fwd pred) h]
    exact congrArg (fun v => (r, (withRawFlags s fwd pred).setZ v)) hf

theorem executeStage_withRawFlags : executeStage r (withRawFlags s fwd pred) =
    ((executeStage r s).1, withRawFlags (executeStage r s).2 fwd pred) := by
  obtain ⟨i, a, q, p, tk⟩ := r
  cases i
  case div | rem => exact executeDivide_withRawFlags fwd pred _ s _ rfl
  all_goals rfl

theorem memoryLoad_withRawFlags (n : Nat) (ext : BitVec (8 * n) → Word) :
    memoryLoad n ext (withRawFlags s fwd pred) = withRawFlags (memoryLoad n ext s) fwd pred := by
  cases h : Params.accessRegion s.params s.bufZ n with
  | none =>
    rw [memoryLoad_outOfRange n ext s h, memoryLoad_outOfRange n ext (withRawFlags s fwd pred) h]
    rfl
  | some g =>
    rw [memoryLoad_inRange n ext s g h, memoryLoad_inRange n ext (withRawFlags s fwd pred) g h]
    cases g <;> rfl

theorem memoryStore_withRawFlags (n : Nat) (val : Word → BitVec (8 * n)) :
    memoryStore n val (withRawFlags s fwd pred) = withRawFlags (memoryStore n val s) fwd pred := by
  cases h : Params.accessRegion s.params s.bufZ n with
  | none =>
    rw [memoryStore_outOfRange n val s h, memoryStore_outOfRange n val (withRawFlags s fwd pred) h]
    rfl
  | some g =>
    rw [memoryStore_inRange n val s g h, memoryStore_inRange n val (withRawFlags s fwd pred) g h]
    cases g <;> rfl

theorem memoryStage_withRawFlags :
    memoryStage r (withRawFlags s fwd pred) = withRawFlags (memoryStage r s) fwd pred := by
  obtain ⟨i, a, q, p, tk⟩ := r
  cases i
  case lb | lh | lw | ld => exact memoryLoad_withRawFlags fwd pred s _ _
  case sb | sh | sw | sd => exact memoryStore_withRawFlags fwd pred s _ _
  all_goals rfl

theorem writeback_withRawFlags :
    writeback r (withRawFlags s fwd pred) = withRawFlags (writeback r s) fwd pred := by
  unfold writeback
  split <;> rfl

theorem branchAtExecute_withRawFlags :
    branchAtExecute r (withRawFlags s fwd pred) = withRawFlags (branchAtExecute r s) fwd pred := by
  unfold branchAtExecute
  split <;> rfl

theorem jumpAtWriteback_withRawFlags :
    jumpAtWriteback r (withRawFlags s fwd pred) = withRawFlags (jumpAtWriteback r s) fwd pred := by
  unfold jumpAtWriteback
  split <;> rfl

/-! ## The phases -/

theorem phaseFetch_withRawFlags : phaseFetch (withRawFlags s fwd pred) =
    mapNext (fun t => withRawFlags t fwd pred) (phaseFetch s) := by
  cases h : s.ifetch s.pc with
  | none => rw [phaseFetch_nothing s h, phaseFetch_nothing (withRawFlags s fwd pred) h]; rfl
  | some w => rw [phaseFetch_word s w h, phaseFetch_word (withRawFlags s fwd pred) w h]; rfl

theorem phaseDecode_withRawFlags : phaseDecode (withRawFlags s fwd pred) =
    mapNext (fun t => withRawFlags t fwd pred) (phaseDecode s) := by
  cases h : s.slotF with
  | none => rw [phaseDecode_empty s h, phaseDecode_empty (withRawFlags s fwd pred) h]; rfl
  | some f =>
    cases hd : decode f.word with
    | ok i => rw [phaseDecode_ok s f i h hd, phaseDecode_ok (withRawFlags s fwd pred) f i h hd]; rfl
    | unknownOpcode =>
      rw [phaseDecode_unknownOpcode s f h hd,
        phaseDecode_unknownOpcode (withRawFlags s fwd pred) f h hd]
      rfl
    | unknownFunct =>
      rw [phaseDecode_unknownFunct s f h hd,
        phaseDecode_unknownFunct (withRawFlags s fwd pred) f h hd]
      rfl

theorem phaseExecute_withRawFlags : phaseExecute (withRawFlags s fwd pred) =
    mapNext (fun t => withRawFlags t fwd pred) (phaseExecute s) := by
  cases h : s.slotD with
  | none => rw [phaseExecute_empty s h, phaseExecute_empty (withRawFlags s fwd pred) h]; rfl
  | some i =>
    rw [phaseExecute_some s i h, phaseExecute_some (withRawFlags s fwd pred) i h,
      executeStage_withRawFlags]
    exact congrArg (fun t => Host.Outcome.next (t.setPhase .memory))
      (branchAtExecute_withRawFlags fwd pred _
        (((executeStage i s).2.emit (.ex (executeStage i s).1)).moveToX (executeStage i s).1))

theorem phaseMemory_withRawFlags : phaseMemory (withRawFlags s fwd pred) =
    mapNext (fun t => withRawFlags t fwd pred) (phaseMemory s) := by
  cases h : s.slotX with
  | none => rw [phaseMemory_empty s h, phaseMemory_empty (withRawFlags s fwd pred) h]; rfl
  | some i =>
    rw [phaseMemory_some s i h, phaseMemory_some (withRawFlags s fwd pred) i h,
      memoryStage_withRawFlags]
    rfl

theorem phaseWriteback_withRawFlags : phaseWriteback (withRawFlags s fwd pred) =
    mapNext (fun t => withRawFlags t fwd pred) (phaseWriteback s) := by
  cases h : s.slotW with
  | none => rw [phaseWriteback_empty s h, phaseWriteback_empty (withRawFlags s fwd pred) h]; rfl
  | some i =>
    rw [phaseWriteback_some s i h, phaseWriteback_some (withRawFlags s fwd pred) i h,
      writeback_withRawFlags]
    exact congrArg (fun t => Host.Outcome.next (t.emptyW.setPhase .fetch))
      (jumpAtWriteback_withRawFlags fwd pred i ((writeback i s).emit (.wb i)))

theorem phaseStep_withRawFlags : phaseStep (withRawFlags s fwd pred) =
    mapNext (fun t => withRawFlags t fwd pred) (phaseStep s) := by
  cases h : s.phase with
  | fetch =>
    rw [phaseStep_fetch s h, phaseStep_fetch (withRawFlags s fwd pred) h]
    exact phaseFetch_withRawFlags fwd pred s.beginStep
  | decode =>
    rw [phaseStep_decode s h, phaseStep_decode (withRawFlags s fwd pred) h]
    exact phaseDecode_withRawFlags fwd pred s.beginStep
  | execute =>
    rw [phaseStep_execute s h, phaseStep_execute (withRawFlags s fwd pred) h]
    exact phaseExecute_withRawFlags fwd pred s.beginStep
  | memory =>
    rw [phaseStep_memory s h, phaseStep_memory (withRawFlags s fwd pred) h]
    exact phaseMemory_withRawFlags fwd pred s.beginStep
  | writeback =>
    rw [phaseStep_writeback s h, phaseStep_writeback (withRawFlags s fwd pred) h]
    exact phaseWriteback_withRawFlags fwd pred s.beginStep

/-- A step commutes with replacing the raw flags, whatever it answers (R9, R306, D21). -/
theorem step_withRawFlags (hp : s.params.cfgPipelined = false) :
    step (withRawFlags s fwd pred) = mapNext (fun t => withRawFlags t fwd pred) (step s) := by
  cases h : s.halted with
  | true => rw [step_halted s h, step_halted (withRawFlags s fwd pred) h]; rfl
  | false =>
    rw [step_phased s h hp, step_phased (withRawFlags s fwd pred) h hp]
    exact phaseStep_withRawFlags fwd pred s

end

/-- Settles O28: a non-pipelined step commutes with replacing the raw flags. -/
theorem rawFlagsIgnoredWithoutPipelining : Obligations.RawFlagsIgnoredWithoutPipelining := by
  intro s fwd pred hp
  have hstep := step_withRawFlags fwd pred s hp
  exact ⟨fun t h => by rw [hstep, h]; rfl, fun f h => by rw [hstep, h]; rfl⟩

end Sys2Proof.Machine
end

section
/-! PROOFS. Decoding the encoding of a representable instruction gives it back (R102, R108). -/

namespace Sys2Proof

/-- The opcode selects the format's decoder, the function codes the row, and the fields and the immediate come
back by the laws of the format (R108). -/
theorem decode_encode (i : Instr) (h : i.WellFormed) : decode (encode i) = .ok i := by
  cases i
  case add | sub | sll | slt | xor | srl | sra | or | and | mul | div | rem =>
    simp [encode, decode, decodeR]
  case addi rd rs1 m | andi rd rs1 m | ori rd rs1 m =>
    have hm : fitsSigned 12 m := of_decide_eq_true h
    simp [encode, decode, decodeI, opI, opR, immI_encI _ _ _ _ _ hm]
  case lb rd rs1 m | lh rd rs1 m | lw rd rs1 m | ld rd rs1 m =>
    have hm : fitsSigned 12 m := of_decide_eq_true h
    simp [encode, decode, decodeLoad, opLoad, opI, opR, immI_encI _ _ _ _ _ hm]
  case jalr rd rs1 m =>
    have hm : fitsSigned 12 m := of_decide_eq_true h
    simp [encode, decode, decodeJalr, opJalr, opLoad, opI, opR, immI_encI _ _ _ _ _ hm]
  case sb rs1 rs2 m | sh rs1 rs2 m | sw rs1 rs2 m | sd rs1 rs2 m =>
    have hm : fitsSigned 12 m := of_decide_eq_true h
    simp [encode, decode, decodeStore, opStore, opJalr, opLoad, opI, opR, immS_encS _ _ _ _ _ hm]
  case beq rs1 rs2 m | bne rs1 rs2 m | blt rs1 rs2 m | bge rs1 rs2 m =>
    obtain ⟨hm, he⟩ : fitsSigned 13 m ∧ isEven m := of_decide_eq_true h
    simp [encode, decode, decodeBranch, opBranch, opStore, opJalr, opLoad, opI, opR,
      immB_encB _ _ _ _ _ hm he]
  case lui rd m | auipc rd m =>
    have hm : fitsSigned 20 m := of_decide_eq_true h
    simp [encode, decode, opAuipc, opLui, opBranch, opStore, opJalr, opLoad, opI, opR,
      immU_encU _ _ _ hm]
  case jal rd m =>
    obtain ⟨hm, he⟩ : fitsSigned 21 m ∧ isEven m := of_decide_eq_true h
    simp [encode, decode, opJal, opAuipc, opLui, opBranch, opStore, opJalr, opLoad, opI, opR,
      immUJ_encUJ _ _ _ hm he]

end Sys2Proof
end

section
/-! PROOFS. Five phases from a FETCH phase with nothing in flight are the instruction run alone (R221 to R226).
The stage procedures neither read nor write the slots and the phase, and they only add events: so they give
the same work on the bench (`State.atRest`) as in flight. -/

namespace Sys2Proof.Machine

open Sys2Proof.Claims

/-- `s` with the four slots of the non-pipelined machine empty, at a FETCH phase, with no event: what is left
is what the stage procedures read and write. -/
def State.atRest (s : State) : State :=
  { s with slotF := none, slotD := none, slotX := none, slotW := none, phase := .fetch, trace := [] }

section
variable (r : Rec) (s t : State)

@[simp] theorem State.atRest_beginStep : s.beginStep.atRest = s.atRest := rfl
@[simp] theorem State.atRest_emit (e : Event) : (s.emit e).atRest = s.atRest := rfl
@[simp] theorem State.atRest_setPhase (p : Phase) : (s.setPhase p).atRest = s.atRest := rfl
@[simp] theorem State.atRest_emptyF : s.emptyF.atRest = s.atRest := rfl
@[simp] theorem State.atRest_putD (i : Rec) : (s.putD i).atRest = s.atRest := rfl
@[simp] theorem State.atRest_moveToX (i : Rec) : (s.moveToX i).atRest = s.atRest := rfl
@[simp] theorem State.atRest_moveToW (i : Rec) : (s.moveToW i).atRest = s.atRest := rfl

/-! ## The stage procedures do not see what `atRest` clears -/

theorem executeDivide_atRest (f : Params → Word → Word → Word) :
    (executeDivide f r s.atRest).1 = (executeDivide f r s).1 ∧
      (executeDivide f r s.atRest).2.atRest = (executeDivide f r s).2.atRest := by
  by_cases h : s.bufB = 0#32
  · rw [executeDivide_zero f r s h, executeDivide_zero f r s.atRest h]
    exact ⟨rfl, rfl⟩
  · rw [executeDivide_nonzero f r s h, executeDivide_nonzero f r s.atRest h]
    exact ⟨rfl, rfl⟩

theorem executeStage_atRest :
    (executeStage r s.atRest).1 = (executeStage r s).1 ∧
      (executeStage r s.atRest).2.atRest = (executeStage r s).2.atRest := by
  obtain ⟨i, a, q, p, tk⟩ := r
  cases i
  case div | rem => exact executeDivide_atRest _ s _
  all_goals exact ⟨rfl, rfl⟩

theorem memoryLoad_atRest (n : Nat) (ext : BitVec (8 * n) → Word) :
    (memoryLoad n ext s.atRest).atRest = (memoryLoad n ext s).atRest := by
  cases h : Params.accessRegion s.params s.bufZ n with
  | none => rw [memoryLoad_outOfRange n ext s h, memoryLoad_outOfRange n ext s.atRest h]; rfl
  | some g =>
    rw [memoryLoad_inRange n ext s g h, memoryLoad_inRange n ext s.atRest g h]
    cases g <;> rfl

theorem memoryStore_atRest (n : Nat) (val : Word → BitVec (8 * n)) :
    (memoryStore n val s.atRest).atRest = (memoryStore n val s).atRest := by
  cases h : Params.accessRegion s.params s.bufZ n with
  | none => rw [memoryStore_outOfRange n val s h, memoryStore_outOfRange n val s.atRest h]; rfl
  | some g =>
    rw [memoryStore_inRange n val s g h, memoryStore_inRange n val s.atRest g h]
    cases g <;> rfl

theorem memoryStage_atRest : (memoryStage r s.atRest).atRest = (memoryStage r s).atRest := by
  obtain ⟨i, a, q, p, tk⟩ := r
  cases i
  case lb | lh | lw | ld => exact memoryLoad_atRest s _ _
  case sb | sh | sw | sd => exact memoryStore_atRest s _ _
  all_goals rfl

theorem branchAtExecute_atRest :
    (branchAtExecute r s).atRest = branchAtExecute r s.atRest := by
  unfold branchAtExecute
  split <;> rfl

/-- From states that agree at rest the execute stage gives the same record and agreeing states. -/
theorem executeStage_congr_atRest (h : s.atRest = t.atRest) :
    (executeStage r s).1 = (executeStage r t).1 ∧
      (executeStage r s).2.atRest = (executeStage r t).2.atRest := by
  obtain ⟨hs, hs'⟩ := executeStage_atRest r s
  obtain ⟨ht, ht'⟩ := executeStage_atRest r t
  exact ⟨by rw [← hs, ← ht, h], by rw [← hs', ← ht', h]⟩

theorem memoryStage_congr_atRest (h : s.atRest = t.atRest) :
    (memoryStage r s).atRest = (memoryStage r t).atRest := by
  rw [← memoryStage_atRest r s, ← memoryStage_atRest r t, h]

theorem branchAtExecute_congr_atRest (h : s.atRest = t.atRest) :
    (branchAtExecute r s).atRest = (branchAtExecute r t).atRest := by
  rw [branchAtExecute_atRest r s, branchAtExecute_atRest r t, h]

theorem readOperands_congr_atRest (i : Instr) (h : s.atRest = t.atRest) :
    (readOperands i s.countDecode).atRest = (readOperands i t.countDecode).atRest :=
  show readOperands i s.atRest.countDecode = readOperands i t.atRest.countDecode by rw [h]

/-- A state with the four slots empty and at a FETCH phase is at rest but for its events. -/
theorem State.beginStep_eq_atRest (hF : s.slotF = none) (hD : s.slotD = none) (hX : s.slotX = none)
    (hW : s.slotW = none) (hp : s.phase = .fetch) : s.beginStep = s.atRest := by
  simp only [State.beginStep, State.atRest, hF, hD, hX, hW, hp]

end

/-! ## The five phases -/

/-- The non-pipelined machine runs and stands at phase `p`, with these slots (R221). -/
structure PhasedAt (s : State) (p : Phase) (f : Option Fetched) (d x w : Option Rec) : Prop where
  running : s.halted = false
  phased : s.params.cfgPipelined = false
  phase : s.phase = p
  slotF : s.slotF = f
  slotD : s.slotD = d
  slotX : s.slotX = x
  slotW : s.slotW = w

theorem step_fetch_phase (s : State) (w : Word) (h : PhasedAt s .fetch none none none none)
    (hw : s.ifetch s.pc = some w) :
    ∃ t, step s = .next t ∧ PhasedAt t .decode (some { word := w, fpc := s.pc }) none none none ∧
      t.atRest = (s.setPc (s.pc + 4#32)).atRest := by
  have hstep := phaseFetch_word s.beginStep w hw
  rw [← phaseStep_fetch s h.phase, ← step_phased s h.running h.phased] at hstep
  exact ⟨_, hstep, ⟨h.running, h.phased, rfl, rfl, h.slotD, h.slotX, h.slotW⟩, rfl⟩

theorem step_decode_phase (s : State) (f : Fetched) (i : Instr)
    (h : PhasedAt s .decode (some f) none none none) (hd : decode f.word = .ok i) :
    ∃ t, step s = .next t ∧
      PhasedAt t .execute none (some (newRec i f.fpc (s.seqCtr + 1))) none none ∧
      t.atRest = (readOperands i s.countDecode).atRest := by
  have hstep := phaseDecode_ok s.beginStep f i h.slotF hd
  rw [← phaseStep_decode s h.phase, ← step_phased s h.running h.phased] at hstep
  refine ⟨_, hstep, ?_, ?_⟩
  · constructor <;> simp [phaseDecodeInstr, h.running, h.phased, h.slotX, h.slotW]
  · simpa [phaseDecodeInstr] using readOperands_congr_atRest s.beginStep.emptyF s i (by simp)

theorem step_execute_phase (s : State) (i : Rec) (h : PhasedAt s .execute none (some i) none none) :
    ∃ t, step s = .next t ∧ PhasedAt t .memory none none (some (executeStage i s).1) none ∧
      t.atRest = (branchAtExecute (executeStage i s).1 (executeStage i s).2).atRest := by
  obtain ⟨hr, hs⟩ := executeStage_congr_atRest i s.beginStep s (State.atRest_beginStep s)
  have hstep := phaseExecute_some s.beginStep i h.slotD
  rw [← phaseStep_execute s h.phase, ← step_phased s h.running h.phased, hr] at hstep
  refine ⟨_, hstep, ?_, ?_⟩
  · constructor <;> simp [h.running, h.phased, h.slotF, h.slotW]
  · rw [State.atRest_setPhase, branchAtExecute_atRest, State.atRest_moveToX, State.atRest_emit, hs,
      ← branchAtExecute_atRest]

theorem step_memory_phase (s : State) (i : Rec) (h : PhasedAt s .memory none none (some i) none) :
    ∃ t, step s = .next t ∧ PhasedAt t .writeback none none none (some i) ∧
      t.atRest = (memoryStage i s).atRest := by
  have hstep := phaseMemory_some s.beginStep i h.slotX
  rw [← phaseStep_memory s h.phase, ← step_phased s h.running h.phased] at hstep
  refine ⟨_, hstep, ?_, ?_⟩
  · constructor <;> simp [h.running, h.phased, h.slotF, h.slotD]
  · simpa using memoryStage_congr_atRest i s.beginStep s (State.atRest_beginStep s)

theorem step_writeback_phase (s : State) (i : Rec)
    (h : PhasedAt s .writeback none none none (some i)) :
    step s = .next (jumpAtWriteback i ((writeback i s.atRest).emit (.wb i))) := by
  have hrest : s.beginStep.emptyW.setPhase .fetch = s.atRest :=
    State.beginStep_eq_atRest (s.emptyW.setPhase .fetch) h.slotF h.slotD h.slotX rfl rfl
  rw [step_phased s h.running h.phased, phaseStep_writeback s h.phase,
    phaseWriteback_some s.beginStep i h.slotW, ← hrest]
  unfold jumpAtWriteback writeback
  split <;> split <;> rfl

/-- The five phases in a row (R222 to R226) are the instruction run alone. -/
theorem stepN_five_eq_exec (s : State) (w : Word) (i : Instr) (h : ReadyToFetch s)
    (hw : s.ifetch s.pc = some w) (hd : decode w = .ok i) : stepN 5 s = exec i s := by
  obtain ⟨hrun, hp, hph, hF, hD, hX, hW⟩ := h
  obtain ⟨s1, e1, h1, r1⟩ := step_fetch_phase s w ⟨hrun, hp, hph, hF, hD, hX, hW⟩ hw
  obtain ⟨s2, e2, h2, r2⟩ := step_decode_phase s1 _ i h1 hd
  obtain ⟨s3, e3, h3, r3⟩ := step_execute_phase s2 _ h2
  obtain ⟨s4, e4, h4, r4⟩ := step_memory_phase s3 _ h3
  have e5 := step_writeback_phase s4 _ h4
  have hseq : s1.seqCtr = s.seqCtr := by
    change s1.atRest.seqCtr = (s.setPc (s.pc + 4#32)).atRest.seqCtr
    rw [r1]
  rw [hseq] at r3 r4 e5
  -- the instruction run alone, stage by stage, agrees at rest with the machine
  have hread := r2.trans (readOperands_congr_atRest s1 (s.setPc (s.pc + 4#32)) i r1)
  obtain ⟨hrec, hexec⟩ := executeStage_congr_atRest (newRec i s.pc (s.seqCtr + 1)) s2 _ hread
  rw [hrec] at r3 r4 e5
  have hbranch := r3.trans (branchAtExecute_congr_atRest _ _ _ hexec)
  have hmem := r4.trans (memoryStage_congr_atRest _ _ _ hbranch)
  rw [stepN_succ_of_next 4 s s1 e1, stepN_succ_of_next 3 s1 s2 e2, stepN_succ_of_next 2 s2 s3 e3,
    stepN_succ_of_next 1 s3 s4 e4, stepN_succ_of_next 0 s4 _ e5, hmem, exec_stages,
    State.beginStep_eq_atRest _ (by simp [hF]) (by simp [hD]) (by simp [hX]) (by simp [hW])
      (by simp [hph])]
  rfl

end Sys2Proof.Machine
end

section
/-! PROOFS. The word that `withFetchWord` places is fetched by the next step, in both modes (R212, R222). -/

namespace Sys2Proof.Machine

open Sys2Proof.Claims

/-- A pipelined step with nothing in flight only fetches: sub-steps 1 to 4 and 6 find nothing, and the window
shifts (R202 to R218). -/
theorem pipelinedStep_empty_fetch (s : State) (w : Word) (hF : s.slotF = none) (hD : s.slotD = none)
    (hX : s.slotX = none) (hW : s.slotW = none) (hS : s.slotS = none) (hb : s.bubble = 0)
    (hw : s.ifetch s.pc = some w) :
    pipelinedStep s =
      .next (decrementBubble (applyForwards (fetchWord w (shiftWindow s.beginStep)))) := by
  have h1 : subWriteback s.beginStep = .go s.beginStep := by simp [subWriteback, hW]
  have h2 : subMemory s.beginStep = s.beginStep := subMemory_none _ hX
  have h3 : subExecute s.beginStep = (s.beginStep, false) := subExecute_none _ hD
  have h4 : subDecode (shiftWindow s.beginStep) = .go (shiftWindow s.beginStep) :=
    subDecode_none _ hF
  have h5 : subFetch false (shiftWindow s.beginStep) = .go (fetchWord w (shiftWindow s.beginStep)) :=
    subFetch_word _ w hb hw
  have h6 : subPromote (fetchWord w (shiftWindow s.beginStep)) =
      .go (fetchWord w (shiftWindow s.beginStep)) := subPromote_none _ hS
  simp only [pipelinedStep, pipelineBack, h1, h2, h3, h4, h5, h6, SubStep.andThen, SubStep.outcome]

section
variable (s : State) (n w : Nat)

/-- The next step fetches the placed word at the pc of `s`, in either mode. -/
theorem step_withFetchWord : ∃ t, step (s.withFetchWord n w) = .next t ∧
    t.slotF = some { word := BitVec.ofNat 32 (w % 2 ^ n), fpc := s.pc } ∧ t.pc = s.pc + 4#32 := by
  have hw := State.withFetchWord_ifetch s n w
  cases hp : (s.withFetchWord n w).params.cfgPipelined with
  | true =>
    refine ⟨_, (step_pipelined _ rfl hp).trans
      (pipelinedStep_empty_fetch _ _ rfl rfl rfl rfl rfl rfl hw), ?_, ?_⟩ <;> simp
  | false =>
    exact ⟨_, (step_phased _ rfl hp).trans ((phaseStep_fetch _ rfl).trans
      (phaseFetch_word (s.withFetchWord n w).beginStep _ hw)), rfl, rfl⟩

theorem withFetchWord_readyToFetch (hp : s.params.cfgPipelined = false) :
    ReadyToFetch (s.withFetchWord n w) := ⟨rfl, hp, rfl, rfl, rfl, rfl, rfl⟩

end

/-- Settles O30: the placed word is fetched next, and decodes to the instruction it encodes, which five phases
then run. -/
theorem placedWordIsTheOneThatRuns : Obligations.PlacedWordIsTheOneThatRuns := by
  rintro s p i hwf rfl
  have hword : BitVec.ofNat 32 ((encode i).toNat % 2 ^ 32) = encode i := by
    rw [Nat.mod_eq_of_lt (encode i).isLt, BitVec.ofNat_toNat, BitVec.setWidth_eq]
  have hfetch := State.withFetchWord_ifetch s 32 (encode i).toNat
  have hstep := step_withFetchWord s 32 (encode i).toNat
  rw [hword] at hfetch hstep
  exact ⟨fun r => State.readReg_congr (State.withFetchWord_regs s _ _) r, rfl, rfl, hstep, fun hp =>
    stepN_five_eq_exec _ _ i (withFetchWord_readyToFetch s _ _ hp) hfetch (decode_encode i hwf)⟩

end Sys2Proof.Machine
end

section
/-! PROOFS. The reset table (R44, R330, R331). -/

namespace Sys2Proof.Machine

theorem State.resetWith_readReg (p : Params) (im : IMem) (dm sm : Memory) (r : Reg) :
    (State.resetWith p im dm sm).readReg r =
      if r = 2#5 then p.spInit else if r = 3#5 then p.gpInit else 0#32 := by
  by_cases h2 : r = 2#5
  · subst h2; rfl
  · by_cases h3 : r = 3#5
    · subst h3; rfl
    · have n2 : 2 ≠ r.toNat := fun h => h2 (BitVec.eq_of_toNat_eq h.symm)
      have n3 : 3 ≠ r.toNat := fun h => h3 (BitVec.eq_of_toNat_eq h.symm)
      simp [State.readReg, State.resetWith, h2, h3, n2, n3]

/-- Settles O23: the registers by their index; every other entry of the table is a field of the reset state. -/
theorem resetTable : Obligations.ResetTable := by
  intro p im dm sm r
  refine ⟨State.resetWith_readReg p im dm sm r, fun g a => ?_, rfl⟩
  cases g <;> rfl

end Sys2Proof.Machine
end

section
/-! PROOFS. What a step that answers a state can have done, said once: the phases (R222 to R226), and sub-steps
4 to 8 of the pipelined step in pc, F and the terminal bits (R207 to R218). -/

namespace Sys2Proof.Machine

/-! ## `stepN` -/

/-- Over every machine, for the reason `coreRun_succ_of_next` gives. -/
theorem coreRun_succ_inv (M : Host.Core) (n : Nat) (s t : M.State) (h : M.run (n + 1) s = .next t) :
    ∃ u, M.step s = .next u ∧ M.run n u = .next t := by
  unfold Host.Core.run at h
  split at h
  · next u hu => exact ⟨u, hu, h⟩
  · cases h
  · cases h

/-- A reflexive and transitive relation that every step respects holds across any number of steps. -/
theorem stepN_induction {R : State → State → Prop} (refl : ∀ s, R s s)
    (trans : ∀ {a b c}, R a b → R b c → R a c) (hstep : ∀ s t, step s = .next t → R s t) :
    ∀ n s t, stepN n s = .next t → R s t := by
  intro n
  induction n with
  | zero =>
    intro s t h
    cases h
    exact refl s
  | succ n ih =>
    intro s t h
    obtain ⟨u, hu, ht⟩ := coreRun_succ_inv Sys2Proof.core n s t h
    exact trans (hstep s u hu) (ih u t ht)

/-! ## The phases -/

/-- The state that a phase begun in `s` answers, one case per way through the five phases (R222 to R226). -/
inductive PhaseResult (s : State) : State → Prop where
  | completed (hp : s.phase = .fetch) (hw : s.ifetch s.pc = none) :
    PhaseResult s (s.emit .ifNone).finish
  | fetched (w : Word) (hp : s.phase = .fetch) (hw : s.ifetch s.pc = some w) :
    PhaseResult s ((fetchWord w s).setPhase .decode)
  | decodeError (f : Fetched) (c : ErrCode) (hp : s.phase = .decode) (hF : s.slotF = some f)
      (hd : decode f.word = .unknownOpcode ∧ c = .unknownOpcode ∨
        decode f.word = .unknownFunct ∧ c = .unknownFunct) :
    PhaseResult s (s.emptyF.raiseFatal c f.word)
  | decoded (f : Fetched) (i : Instr) (hp : s.phase = .decode) (hF : s.slotF = some f)
      (hd : decode f.word = .ok i) :
    PhaseResult s (phaseDecodeInstr i f.fpc s.emptyF)
  | executed (i : Rec) (hp : s.phase = .execute) (hD : s.slotD = some i) :
    PhaseResult s ((branchAtExecute (executeStage i s).1
      (((executeStage i s).2.emit (.ex (executeStage i s).1)).moveToX (executeStage i s).1)).setPhase
        .memory)
  | accessed (i : Rec) (hp : s.phase = .memory) (hX : s.slotX = some i) :
    PhaseResult s ((((memoryStage i s).emit (.mem i)).moveToW i).setPhase .writeback)
  | retired (i : Rec) (hp : s.phase = .writeback) (hW : s.slotW = some i) :
    PhaseResult s ((jumpAtWriteback i ((writeback i s).emit (.wb i))).emptyW.setPhase .fetch)

theorem phaseStep_result (s t : State) (h : phaseStep s = .next t) : PhaseResult s.beginStep t := by
  cases hp : s.phase with
  | fetch =>
    rw [phaseStep_fetch s hp] at h
    cases hw : s.beginStep.ifetch s.beginStep.pc with
    | none => rw [phaseFetch_nothing _ hw] at h; cases h; exact .completed hp hw
    | some w => rw [phaseFetch_word _ w hw] at h; cases h; exact .fetched w hp hw
  | decode =>
    rw [phaseStep_decode s hp] at h
    cases hF : s.beginStep.slotF with
    | none => rw [phaseDecode_empty _ hF] at h; cases h
    | some f =>
      cases hd : decode f.word with
      | ok i => rw [phaseDecode_ok _ f i hF hd] at h; cases h; exact .decoded f i hp hF hd
      | unknownOpcode =>
        rw [phaseDecode_unknownOpcode _ f hF hd] at h; cases h
        exact .decodeError f _ hp hF (.inl ⟨hd, rfl⟩)
      | unknownFunct =>
        rw [phaseDecode_unknownFunct _ f hF hd] at h; cases h
        exact .decodeError f _ hp hF (.inr ⟨hd, rfl⟩)
  | execute =>
    rw [phaseStep_execute s hp] at h
    cases hD : s.beginStep.slotD with
    | none => rw [phaseExecute_empty _ hD] at h; cases h
    | some i => rw [phaseExecute_some _ i hD] at h; cases h; exact .executed i hp hD
  | memory =>
    rw [phaseStep_memory s hp] at h
    cases hX : s.beginStep.slotX with
    | none => rw [phaseMemory_empty _ hX] at h; cases h
    | some i => rw [phaseMemory_some _ i hX] at h; cases h; exact .accessed i hp hX
  | writeback =>
    rw [phaseStep_writeback s hp] at h
    cases hW : s.beginStep.slotW with
    | none => rw [phaseWriteback_empty _ hW] at h; cases h
    | some i => rw [phaseWriteback_some _ i hW] at h; cases h; exact .retired i hp hW

/-! ## Sub-steps 4 to 8 -/

/-- Where the sub-step goes on its state has P, where it ends the step its state has Q. Unlike `SubStep.Sat`
it allows `stuck`, so that it holds of every state. -/
def SubStep.Answers (P Q : State → Prop) (x : SubStep) : Prop :=
  match x with
  | .go s => P s
  | .stop s => Q s
  | .stuck _ => True

theorem SubStep.Answers.imp {P P' Q Q' : State → Prop} {x : SubStep} (hx : x.Answers P Q)
    (hP : ∀ s, P s → P' s) (hQ : ∀ s, Q s → Q' s) : x.Answers P' Q' := by
  cases x with
  | go s => exact hP s hx
  | stop s => exact hQ s hx
  | stuck f => trivial

theorem SubStep.Answers.andThen {P P' Q : State → Prop} {x : SubStep} {k : State → SubStep}
    (hx : x.Answers P Q) (hk : ∀ s, P s → (k s).Answers P' Q) : (x.andThen k).Answers P' Q := by
  cases x with
  | go s => exact hk s hx
  | stop s => exact hx
  | stuck f => trivial

theorem SubStep.Answers.outcome {P : State → Prop} {x : SubStep} {t : State} (hx : x.Answers P P)
    (h : x.outcome = .next t) : P t := by
  cases x with
  | go s => cases h; exact hx
  | stop s => cases h; exact hx
  | stuck f => cases h

/-- p is the target of a jal or branch decoded from F (R209, R281 to R283). -/
def State.RedirectsTo (s : State) (p : Word) : Prop :=
  ∃ f j, s.slotF = some f ∧ decode f.word = .ok j ∧ (j.isJal = true ∨ j.isBranch = true) ∧
    p = f.fpc + j.imm

/-- From pc = p the fetch sub-step leaves p and an empty F, or the word there in F and p + 4 (R212 to R214). -/
def LeftByFetch (s t : State) (p : Word) : Prop :=
  t.pc = p ∧ t.slotF = none ∨
    t.pc = p + 4#32 ∧ ∃ w, s.ifetch p = some w ∧ t.slotF = some { word := w, fpc := p }

theorem LeftByFetch.congr {s s' t : State} {p : Word} (h : LeftByFetch s t p)
    (hif : s.ifetch = s'.ifetch) : LeftByFetch s' t p := by
  simpa only [LeftByFetch, hif] using h

/-- What sub-step 4 does to the fields the fetch reads, and to `done` (R209). -/
structure AfterDecode (s v : State) : Prop where
  slotF : v.slotF = none
  pc : v.pc = s.pc ∨ s.RedirectsTo v.pc
  ifetch : v.ifetch = s.ifetch
  done : v.done = s.done

theorem predictsTaken_control (s : State) (i : Instr) (h : s.predictsTaken i = true) :
    i.isJal = true ∨ i.isBranch = true := by
  simp only [State.predictsTaken, Bool.or_eq_true, Bool.and_eq_true] at h
  exact h.imp id fun hb => hb.1.1

/-- A decoded instruction is parked or enters D, unless a producer is missing (R209, R211). -/
theorem placeDecoded_cases (i : Rec) (s : State) :
    (∃ f, placeDecoded i s = .stuck f) ∨
    (∃ n es, placeDecoded i s = .go (park i n (s.addForwards es))) ∨
    ∃ es, placeDecoded i s = .go (enterD i (s.addForwards es)) := by
  unfold placeDecoded
  split
  · next f _ => exact .inl ⟨f, rfl⟩
  · next n es _ =>
    split
    · exact .inr (.inl ⟨n, es, rfl⟩)
    · exact .inr (.inr ⟨es, rfl⟩)

theorem subDecode_answers (s : State) :
    (subDecode s).Answers (fun v => AfterDecode s v ∧ v.fatal = s.fatal) (AfterDecode s) := by
  cases hF : s.slotF with
  | none =>
    rw [subDecode_none s hF]
    exact ⟨⟨hF, .inl rfl, rfl, rfl⟩, rfl⟩
  | some f =>
    cases hd : decode f.word with
    | unknownOpcode =>
      rw [subDecode_unknownOpcode s f hF hd]
      exact ⟨rfl, .inl rfl, rfl, rfl⟩
    | unknownFunct =>
      rw [subDecode_unknownFunct s f hF hd]
      exact ⟨rfl, .inl rfl, rfl, rfl⟩
    | ok i =>
      rw [subDecode_ok s f i hF hd]
      obtain ⟨r, v, hplace, -, hv⟩ := decodeInstr_eq i f.fpc s.emptyF
      have hpc : v.pc = s.pc ∨ s.RedirectsTo v.pc := by
        have h : v.pc = if s.emptyF.predictsTaken i = true then f.fpc + i.imm else s.pc := by
          rw [hv]; rfl
        rw [h]
        split
        · next ht => exact .inr ⟨f, i, hF, hd, predictsTaken_control _ i ht, rfl⟩
        · exact .inl rfl
      obtain ⟨hF', hif, hdn, hft⟩ : v.slotF = none ∧ v.ifetch = s.ifetch ∧ v.done = s.done ∧
          v.fatal = s.fatal := by
        rw [hv]; exact ⟨rfl, rfl, rfl, rfl⟩
      rw [hplace]
      obtain ⟨_, h⟩ | ⟨n, es, h⟩ | ⟨es, h⟩ := placeDecoded_cases r v <;> rw [h]
      · trivial
      · exact ⟨⟨hF', hpc, hif, hdn⟩, hft⟩
      · exact ⟨⟨hF', hpc, hif, hdn⟩, hft⟩

/-- The fetch sub-step never raises a fatal error, and sets `done` only where it ends the step (R212 to R215). -/
theorem subFetch_answers (fl : Bool) (s : State) (hF : s.slotF = none) :
    (subFetch fl s).Answers
      (fun v => LeftByFetch s v s.pc ∧ v.fatal = s.fatal ∧ v.done = s.done)
      (fun v => LeftByFetch s v s.pc ∧ v.fatal = s.fatal) := by
  cases fl with
  | true =>
    rw [subFetch_flush]
    exact ⟨.inl ⟨rfl, hF⟩, rfl, rfl⟩
  | false =>
    obtain hb | hb := Nat.eq_zero_or_pos s.bubble
    · cases hw : s.ifetch s.pc with
      | some w =>
        rw [subFetch_word s w hb hw]
        exact ⟨.inr ⟨rfl, w, hw, rfl⟩, rfl, rfl⟩
      | none =>
        rw [subFetch_nothing s hb hw]
        split
        · exact ⟨.inl ⟨rfl, hF⟩, rfl⟩
        · exact ⟨.inl ⟨rfl, hF⟩, rfl, rfl⟩
    · rw [subFetch_bubble s hb]
      exact ⟨.inl ⟨rfl, hF⟩, rfl, rfl⟩

/-- Promotion never ends the step, and leaves pc, F and the terminal bits alone (R216). -/
theorem subPromote_answers (s : State) :
    (subPromote s).Answers
      (fun v => v.pc = s.pc ∧ v.slotF = s.slotF ∧ v.fatal = s.fatal ∧ v.done = s.done)
      (fun _ => False) := by
  unfold subPromote
  split
  · exact ⟨rfl, rfl, rfl, rfl⟩
  · split
    · dsimp only
      split
      · split
        · trivial
        · exact ⟨rfl, rfl, rfl, rfl⟩
      · exact ⟨rfl, rfl, rfl, rfl⟩
    · exact ⟨rfl, rfl, rfl, rfl⟩

/-- What sub-steps 4 to 8 do to pc, F and the terminal bits: decode may redirect pc, then the fetch advances
it; and a step sets `fatal` or `done`, never both. -/
structure BackControl (e t : State) : Prop where
  pc : ∃ p, (p = e.pc ∨ e.RedirectsTo p) ∧ LeftByFetch e t p
  terminal : t.done = e.done ∨ t.fatal = e.fatal

theorem BackControl.congr {e u t : State} (h : BackControl e u) (hpc : t.pc = u.pc)
    (hF : t.slotF = u.slotF) (hft : t.fatal = u.fatal) (hdn : t.done = u.done) : BackControl e t := by
  obtain ⟨⟨p, hp, hleft⟩, hterm⟩ := h
  exact ⟨⟨p, hp, by simpa only [LeftByFetch, hpc, hF] using hleft⟩, by rwa [hft, hdn]⟩

theorem subFetch_control (fl : Bool) (e v : State) (hv : AfterDecode (shiftWindow e) v)
    (hft : v.fatal = e.fatal) : (subFetch fl v).Answers (BackControl e) (BackControl e) := by
  obtain ⟨hF, hpc, hif, -⟩ := hv
  exact (subFetch_answers fl v hF).imp
    (fun u ⟨hu, hf, _⟩ => ⟨⟨v.pc, hpc, hu.congr hif⟩, .inr (hf.trans hft)⟩)
    (fun u ⟨hu, hf⟩ => ⟨⟨v.pc, hpc, hu.congr hif⟩, .inr (hf.trans hft)⟩)

theorem pipelineBack_control (fl : Bool) (e t : State) (h : (pipelineBack fl e).outcome = .next t) :
    BackControl e t := by
  have hdecode : (subDecode (shiftWindow e)).Answers
      (fun v => AfterDecode (shiftWindow e) v ∧ v.fatal = e.fatal) (BackControl e) :=
    (subDecode_answers (shiftWindow e)).imp (fun _ h => h)
      fun v ⟨hF, hpc, _, hdn⟩ => ⟨⟨v.pc, hpc, .inl ⟨rfl, hF⟩⟩, .inl hdn⟩
  have hpromote : ∀ u, BackControl e u → (subPromote u).Answers (BackControl e) (BackControl e) :=
    fun u hu => (subPromote_answers u).imp
      (fun v ⟨hpc, hF, hft, hdn⟩ => hu.congr hpc hF hft hdn) (fun _ h => h.elim)
  have hforward : ∀ u, BackControl e u → BackControl e (decrementBubble (applyForwards u)) :=
    fun u hu => hu.congr (by simp) (by simp) (by simp) (by simp)
  have hback : (pipelineBack fl e).Answers (BackControl e) (BackControl e) :=
    hdecode.andThen fun v ⟨hv, hft⟩ => (subFetch_control fl e v hv hft).andThen fun u hu =>
      (hpromote u hu).andThen hforward
  exact hback.outcome h

end Sys2Proof.Machine
end

section
/-! PROOFS. A step writes a register only by the writeback of the instruction it retires (R20, R203, R226). -/

namespace Sys2Proof.Machine

open Sys2Proof.Safety Sys2Proof.Claims

theorem retiring_pipelined (s : State) (hp : s.params.cfgPipelined = true) :
    retiring s = s.slotW := by
  simp [retiring, hp]

theorem retiring_writeback (s : State) (hp : s.params.cfgPipelined = false)
    (hph : s.phase = .writeback) : retiring s = s.slotW := by
  simp [retiring, hp, hph]

theorem retiring_otherPhase (s : State) (hp : s.params.cfgPipelined = false)
    (hph : s.phase ≠ .writeback) : retiring s = none := by
  simp [retiring, hp, hph]

theorem slotDest_eq_some_iff (w : Option Rec) (r : Reg) :
    slotDest w = some r ↔ ∃ i, w = some i ∧ i.instr.effDest = some r := by
  cases w <;> simp [slotDest]

/-- The registers after a state's writeback of the occupant of W, over any state with those registers. -/
theorem readReg_of_writeback (s t : State) (i : Rec) (hW : s.slotW = some i)
    (ht : t.regs = (writeback i s).regs) (r : Reg) :
    t.readReg r = if slotDest s.slotW = some r then s.bufY else s.readReg r := by
  rw [State.readReg_congr ht r, writeback_readReg, hW]
  rfl

/-- Every phase but WRITEBACK leaves the register file alone. -/
theorem PhaseResult.regs_eq {s t : State} (h : PhaseResult s t) (hp : s.phase ≠ .writeback) :
    t.regs = s.regs := by
  cases h with
  | retired _ hph => exact absurd hph hp
  | completed | fetched | decodeError | decoded => rfl
  | executed | accessed => simp

theorem PhaseResult.readReg_eq {s t : State} (h : PhaseResult s t)
    (hp : s.params.cfgPipelined = false) (r : Reg) :
    t.readReg r = if slotDest (retiring s) = some r then s.bufY else s.readReg r := by
  by_cases hph : s.phase = .writeback
  · rw [retiring_writeback s hp hph]
    cases h with
    | retired i _ hW => exact readReg_of_writeback s _ i hW (by simp) r
    | completed hq | fetched _ hq | decodeError _ _ hq | decoded _ _ hq | executed _ hq | accessed _ hq =>
      cases hq.symm.trans hph
  · rw [retiring_otherPhase s hp hph, State.readReg_congr (h.regs_eq hph) r]
    rfl

theorem pipelinedStep_readReg (s t : State) (h : pipelinedStep s = .next t) (r : Reg) :
    t.readReg r = if slotDest s.slotW = some r then s.bufY else s.readReg r := by
  obtain ⟨i, hW, -, -, -, -, -, hs⟩ | ⟨e, fl, he, hs⟩ := pipelinedStep_cases s
  · rw [hs] at h
    cases h
    exact readReg_of_writeback s.beginStep _ i hW (by simp) r
  · rw [hs] at h
    rw [State.readReg_congr (pipelineBack_kept fl e t h).regs r, he.regs r]

/-- In either mode the retiring instruction's effective destination gets Y, and no other register changes. -/
theorem step_readReg (s t : State) (hs : s.halted = false) (h : step s = .next t) (r : Reg) :
    t.readReg r = if slotDest (retiring s) = some r then s.bufY else s.readReg r := by
  cases hp : s.params.cfgPipelined with
  | true =>
    rw [step_pipelined s hs hp] at h
    rw [retiring_pipelined s hp]
    exact pipelinedStep_readReg s t h r
  | false =>
    rw [step_phased s hs hp] at h
    exact (phaseStep_result s t h).readReg_eq hp r

/-- Settles O33: `step_readReg`, by whether the retiring instruction's effective destination is the register. -/
theorem registersWrittenOnlyByWriteback : Obligations.RegistersWrittenOnlyByWriteback := by
  intro s t hs h r
  have hr := step_readReg s t hs h r
  constructor
  · intro i hi hd
    rw [hr, if_pos ((slotDest_eq_some_iff _ r).2 ⟨i, hi, hd⟩)]
  · intro hne
    have hnot : slotDest (retiring s) ≠ some r := fun hd => by
      obtain ⟨i, hi, hid⟩ := (slotDest_eq_some_iff _ r).1 hd
      exact hne i hi hid
    rw [hr, if_neg hnot]

end Sys2Proof.Machine
end

section
/-! PROOFS. The terminal bits and `err_seen` are never cleared, and a halted machine stands still (R13, R39). -/

namespace Sys2Proof.Machine

theorem State.halted_eq_false_iff (s : State) :
    s.halted = false ↔ s.done = false ∧ s.fatal = false := by
  simp [State.halted]

theorem executeStage_errSeen_sticky (r : Rec) (s : State) (h : s.errSeen = true) :
    (executeStage r s).2.errSeen = true := by
  obtain ⟨hkept, -⟩ | ⟨-, -, hset, -⟩ := executeStage_log r s
  · rw [hkept, h]
  · exact hset

theorem memoryStage_errSeen_sticky (r : Rec) (s : State) (h : s.errSeen = true) :
    (memoryStage r s).errSeen = true := by
  obtain ⟨hkept, -⟩ | ⟨_, -, hset, -⟩ := memoryStage_log r s
  · rw [hkept, h]
  · exact hset

/-- What an effective step does to the status bits: `err_seen` stays set, and of the terminal bits at most one
changes (R39). -/
structure StatusStep (s t : State) : Prop where
  errSeen : s.errSeen = true → t.errSeen = true
  terminal : t.done = s.done ∨ t.fatal = s.fatal

theorem PhaseResult.status {s t : State} (h : PhaseResult s t) : StatusStep s t := by
  cases h with
  | completed => exact ⟨id, .inr rfl⟩
  | fetched => exact ⟨id, .inl rfl⟩
  | decodeError => exact ⟨id, .inl rfl⟩
  | decoded => exact ⟨id, .inl rfl⟩
  | executed i => exact ⟨fun h => by simpa using executeStage_errSeen_sticky i s h, .inl (by simp)⟩
  | accessed i => exact ⟨fun h => by simpa using memoryStage_errSeen_sticky i s h, .inl (by simp)⟩
  | retired => exact ⟨fun h => by simpa using h, .inl (by simp)⟩

theorem pipelinedStep_status (s t : State) (h : pipelinedStep s = .next t) : StatusStep s t := by
  obtain ⟨i, -, -, -, -, -, -, hs⟩ | ⟨e, fl, he, hs⟩ := pipelinedStep_cases s
  · rw [hs] at h
    cases h
    exact ⟨fun h => by simpa using h, .inr (by simp)⟩
  · rw [hs] at h
    refine ⟨fun hse => (pipelineBack_kept fl e t h).errSeen.trans (he.errSticky hse), ?_⟩
    rw [← he.done, ← he.fatal]
    exact (pipelineBack_control fl e t h).terminal

theorem step_status (s t : State) (hs : s.halted = false) (h : step s = .next t) : StatusStep s t := by
  cases hp : s.params.cfgPipelined with
  | true =>
    rw [step_pipelined s hs hp] at h
    exact pipelinedStep_status s t h
  | false =>
    rw [step_phased s hs hp] at h
    obtain ⟨herr, hterm⟩ := (phaseStep_result s t h).status
    exact ⟨herr, hterm⟩

/-- What any number of steps keeps of the status bits (R13, R39). -/
structure StatusKept (s t : State) : Prop where
  done : s.done = true → t.done = true
  fatal : s.fatal = true → t.fatal = true
  errSeen : s.errSeen = true → t.errSeen = true
  halted : s.halted = true → t = s
  oneTerminal : ¬(s.done = true ∧ s.fatal = true) → ¬(t.done = true ∧ t.fatal = true)

theorem StatusKept.refl (s : State) : StatusKept s s := ⟨id, id, id, fun _ => rfl, id⟩

theorem StatusKept.trans {a b c : State} (h : StatusKept a b) (k : StatusKept b c) : StatusKept a c where
  done := k.done ∘ h.done
  fatal := k.fatal ∘ h.fatal
  errSeen := k.errSeen ∘ h.errSeen
  halted ha := by
    obtain rfl := h.halted ha
    exact k.halted ha
  oneTerminal := k.oneTerminal ∘ h.oneTerminal

/-- A step of a running machine finds both terminal bits clear, so it can set one of them only. -/
theorem step_statusKept (s t : State) (h : step s = .next t) : StatusKept s t := by
  cases hs : s.halted with
  | true =>
    rw [step_halted s hs] at h
    cases h
    exact .refl s
  | false =>
    obtain ⟨herr, hterm⟩ := step_status s t hs h
    obtain ⟨hdn, hft⟩ := s.halted_eq_false_iff.1 hs
    rw [hdn, hft] at hterm
    refine ⟨by simp [hdn], by simp [hft], herr, by simp [hs], fun _ ⟨hd, hf⟩ => ?_⟩
    simp [hd, hf] at hterm

/-- Settles O26: every step keeps the status bits, and so does any number of steps. -/
theorem terminalBitsAreSticky : Obligations.TerminalBitsAreSticky := by
  intro n s t h
  obtain ⟨hdn, hft, herr, hhalt, hone⟩ :=
    stepN_induction StatusKept.refl StatusKept.trans step_statusKept n s t h
  exact ⟨hdn, hft, herr, hhalt, hone⟩

end Sys2Proof.Machine
end

section
/-! PROOFS. The writers of pc in pipelined mode: execute's resolution, decode's redirect and the fetch (R24, R207,
R209, R212). -/

namespace Sys2Proof.Machine

open Sys2Proof.Safety Sys2Proof.Claims

/-- jalr's target is the sum with bit 0 cleared (R183). -/
theorem State.jalrTarget_toNat (s : State) :
    s.jalrTarget.toNat = (s.bufA.toNat + s.bufB.toNat) % 2 ^ 32 / 2 * 2 := by
  have hval : s.jalrTarget.toNat = (s.bufA.toNat + s.bufB.toNat) % 2 ^ 32 &&& 0xFFFFFFFE := by
    simp [State.jalrTarget]
  have heven : s.jalrTarget.toNat % 2 = 0 := by
    rw [hval, ← pow_one 2, Nat.and_mod_two_pow]
    simp
  have hhalf : s.jalrTarget.toNat / 2 = (s.bufA.toNat + s.bufB.toNat) % 2 ^ 32 / 2 := by
    rw [hval, Nat.and_div_two]
    exact (Nat.and_two_pow_sub_one_eq_mod _ 31).trans (Nat.mod_eq_of_lt (by omega))
  omega

theorem executeStage_jalr_bufM (i : Rec) (s : State) (h : i.instr.isJalr = true) :
    (executeStage i s).2.bufM = s.jalrTarget := by
  obtain ⟨j, a, q, p, tk⟩ := i
  cases j
  case jalr => rfl
  all_goals cases h

/-- p is what the resolution of the instruction in D can make of pc: a branch's target or fall-through, or a
jalr's target (R207, R285, R288). -/
def State.ResolvesTo (s : State) (p : Word) : Prop :=
  (∃ i, s.slotD = some i ∧ i.instr.isBranch = true ∧ (p = i.fpc + i.instr.imm ∨ p = i.fpc + 4#32)) ∨
  ∃ i, s.slotD = some i ∧ i.instr.isJalr = true ∧
    p.toNat = (s.bufA.toNat + s.bufB.toNat) % 2 ^ 32 / 2 * 2

/-- The outcome of the branch just executed is its target or its fall-through. -/
theorem executeStage_outcomePc (i : Rec) (s : State) :
    (executeStage i s).1.outcomePc = i.fpc + i.instr.imm ∨
      (executeStage i s).1.outcomePc = i.fpc + 4#32 := by
  unfold Rec.outcomePc
  split
  · exact .inl (by simp [Rec.target])
  · exact .inr (by simp [Rec.next])

/-- Before sub-step 4 pc and F are the old ones, or D's resolution has set pc and emptied F: writeback and the
memory stage write neither (R203, R205, D29). -/
theorem Front.control {s e : State} {fl : Bool} (h : Front s e fl) :
    (e.pc = s.pc ∧ e.slotF = s.slotF) ∨ (s.ResolvesTo e.pc ∧ e.slotF = none) := by
  have hfl := h.flush_eq
  have hpc := h.pc
  have hF := h.slotF
  cases hD : s.slotD with
  | none =>
    rw [hD] at hfl hpc
    exact .inl ⟨hpc, by rw [hF, hfl]; rfl⟩
  | some i =>
    simp only [hD, Option.elim_some] at hfl hpc
    cases hm : (executeStage i s).1.mispredicted with
    | true =>
      have hbranch : i.instr.isBranch = true := by
        simp only [Rec.mispredicted, executeStage_rec_instr, Bool.and_eq_true] at hm
        exact hm.1
      simp only [hm, if_true, Bool.true_or] at hfl hpc
      refine .inr ⟨.inl ⟨i, hD, hbranch, ?_⟩, by rw [hF, hfl]; rfl⟩
      rw [hpc]
      exact executeStage_outcomePc i s
    | false =>
      cases hj : i.instr.isJalr with
      | true =>
        simp only [hm, hj, if_true, Bool.or_true] at hfl hpc
        refine .inr ⟨.inr ⟨i, hD, hj, ?_⟩, by rw [hF, hfl]; rfl⟩
        rw [hpc]
        simp [executeStage_jalr_bufM i s hj, State.jalrTarget_toNat]
      | false =>
        simp only [hm, hj, Bool.or_false] at hfl hpc
        exact .inl ⟨by simpa using hpc, by rw [hF, hfl]; rfl⟩

/-- The base from which the fetch leaves pc (R24): the old pc, D's resolution, or the redirect of the word
decoded from F. After a flush there is no word to decode. -/
theorem Front.base {s e : State} {fl : Bool} (h : Front s e fl) (p : Word)
    (hp : p = e.pc ∨ e.RedirectsTo p) : p = s.pc ∨ s.ResolvesTo p ∨ s.RedirectsTo p := by
  obtain ⟨hpc, hF⟩ | ⟨hres, hF⟩ := h.control
  · obtain rfl | hred := hp
    · exact .inl hpc
    · exact .inr (.inr (by simpa only [State.RedirectsTo, hF] using hred))
  · obtain rfl | ⟨f, _, hf, _⟩ := hp
    · exact .inr (.inl hres)
    · rw [hF] at hf
      cases hf

theorem Front.ifetch_eq {s e : State} {fl : Bool} (h : Front s e fl) : e.ifetch = s.ifetch := by
  funext a
  simp only [State.ifetch, h.params, h.imem]

theorem pipelinedStep_pc (s t : State) (h : pipelinedStep s = .next t) :
    ∃ p, (p = s.pc ∨ s.ResolvesTo p ∨ s.RedirectsTo p) ∧ LeftByFetch s t p := by
  obtain ⟨i, -, hF, -, -, -, -, hs⟩ | ⟨e, fl, he, hs⟩ := pipelinedStep_cases s
  · rw [hs] at h
    cases h
    exact ⟨s.pc, .inl rfl, .inl ⟨by simp, by simpa using hF⟩⟩
  · rw [hs] at h
    obtain ⟨p, hp, hleft⟩ := (pipelineBack_control fl e t h).pc
    exact ⟨p, he.base p hp, hleft.congr he.ifetch_eq⟩

/-- Settles O36: the step leaves pc by a fetch from one of the bases that `Front.base` lists. -/
theorem pipelinedPcWriters : Obligations.PipelinedPcWriters := by
  intro s t ⟨hs, hp⟩ h
  rw [step_pipelined s hs hp] at h
  obtain ⟨p, hold | (hbranch | hjalr) | hred, hleft⟩ := pipelinedStep_pc s t h
  · exact ⟨p, .inl hold, hleft⟩
  · exact ⟨p, .inr (.inl hbranch), hleft⟩
  · exact ⟨p, .inr (.inr (.inl hjalr)), hleft⟩
  · exact ⟨p, .inr (.inr (.inr hred)), hleft⟩

end Sys2Proof.Machine
end

section
/-! PROOFS. A load or store run alone whose access lies in no window (R65, R68, R69, R303). -/

namespace Sys2Proof.Machine

open Sys2Proof.Claims

/-- What the range check answers is the window the access lies in (R64, R65). -/
theorem inWindow_of_accessRegion (p : Params) (a : Word) (n : Nat) (g : Region)
    (h : Params.accessRegion p a n = some g) : InWindow p g a n := by
  obtain ⟨h', hlo, -, hhi⟩ | ⟨h', hdata, hlo, -, hhi⟩ | h' := Params.accessRegion_cases p a n
  · cases h'.symm.trans h
    exact ⟨hlo, hhi⟩
  · cases h'.symm.trans h
    exact ⟨hdata, hlo, hhi⟩
  · cases h'.symm.trans h

theorem accessRegion_of_not_inRange (p : Params) (a : Word) (n : Nat) (h : ¬InRange p a n) :
    Params.accessRegion p a n = none :=
  Option.eq_none_iff_forall_ne_some.2 fun g hg => h ⟨g, inWindow_of_accessRegion p a n g hg⟩

/-- What a load run alone hands to its memory stage: the base and the immediate in A and B, the address in Z
(R150, R201). -/
abbrev State.addressedLoad (s : State) (rs1 : Reg) (imm : Word) : State :=
  ((s.setPc (s.pc + 4#32)).countDecode.setAB (s.readReg rs1) imm).setZ (s.readReg rs1 + imm)

/-- What a store run alone hands to its memory stage: the base and the value in A and B, the address in Z and
the value in M (R155, R201). -/
abbrev State.addressedStore (s : State) (rs1 rs2 : Reg) (imm : Word) : State :=
  (((s.setPc (s.pc + 4#32)).countDecode.setAB (s.readReg rs1) (s.readReg rs2)).setZ
    (s.readReg rs1 + imm)).setM (s.readReg rs2)

/-- The constructor c runs alone as the n-byte load with the extension ext (R150). -/
def RunsAsLoad (c : Reg → Reg → Word → Instr) (n : Nat) (ext : BitVec (8 * n) → Word) : Prop :=
  ∀ rd rs1 imm s, exec (c rd rs1 imm) s =
    .next (((memoryLoad n ext (s.addressedLoad rs1 imm)).beginStep.writeReg rd
      (memoryLoad n ext (s.addressedLoad rs1 imm)).bufY).emit
        (.wb (newRec (c rd rs1 imm) s.pc (s.seqCtr + 1))))

/-- The constructor c runs alone as the n-byte store of the value val (R155). -/
def RunsAsStore (c : Reg → Reg → Word → Instr) (n : Nat) (val : Word → BitVec (8 * n)) : Prop :=
  ∀ rs1 rs2 imm s, exec (c rs1 rs2 imm) s =
    .next ((memoryStore n val (s.addressedStore rs1 rs2 imm)).beginStep.emit
      (.wb (newRec (c rs1 rs2 imm) s.pc (s.seqCtr + 1))))

theorem lb_runsAsLoad : RunsAsLoad .lb 1 extByte := fun _ _ _ _ => rfl
theorem lh_runsAsLoad : RunsAsLoad .lh 2 extHalf := fun _ _ _ _ => rfl
theorem lw_runsAsLoad : RunsAsLoad .lw 4 extWord := fun _ _ _ _ => rfl
theorem ld_runsAsLoad : RunsAsLoad .ld 8 extDouble := fun _ _ _ _ => rfl

theorem sb_runsAsStore : RunsAsStore .sb 1 valByte := fun _ _ _ _ => rfl
theorem sh_runsAsStore : RunsAsStore .sh 2 valHalf := fun _ _ _ _ => rfl
theorem sw_runsAsStore : RunsAsStore .sw 4 valWord := fun _ _ _ _ => rfl
theorem sd_runsAsStore : RunsAsStore .sd 8 valDouble := fun _ _ _ _ => rfl

/-- Out of range the memory stage puts 0 in Y and logs; the writeback then takes that 0 (R68). -/
theorem RunsAsLoad.zeroOutOfRange {c : Reg → Reg → Word → Instr} {n : Nat}
    {ext : BitVec (8 * n) → Word} (h : RunsAsLoad c n ext) : LoadsZeroOutOfRange c n := by
  intro rd rs1 imm s hrange
  have hmem : memoryLoad n ext (s.addressedLoad rs1 imm) =
      ((s.addressedLoad rs1 imm).setY 0#32).log .loadRange (s.readReg rs1 + imm) :=
    memoryLoad_outOfRange n ext _ (accessRegion_of_not_inRange _ _ _ hrange)
  have hexec := h rd rs1 imm s
  rw [hmem] at hexec
  refine ⟨_, hexec, fun r => State.readReg_writeReg _ rd r 0#32, ?_, ?_, ?_, ?_, ?_, ?_⟩
  · simp
  · simp [Buffers]
  · simp [MemoryKept]
  · simp [ControlKept]
  · simp [Logged, ErrCode.num]
  · simp [Retired, newRec]

/-- Out of range the memory stage logs and writes no byte; a store has no writeback (R69). -/
theorem RunsAsStore.skippedOutOfRange {c : Reg → Reg → Word → Instr} {n : Nat}
    {val : Word → BitVec (8 * n)} (h : RunsAsStore c n val) : StoreSkippedOutOfRange c n := by
  intro rs1 rs2 imm s hrange
  have hmem : memoryStore n val (s.addressedStore rs1 rs2 imm) =
      ((s.addressedStore rs1 rs2 imm).log .storeRange (s.readReg rs1 + imm)).setY
        (s.readReg rs1 + imm) :=
    memoryStore_outOfRange n val _ (accessRegion_of_not_inRange _ _ _ hrange)
  have hexec := h rs1 rs2 imm s
  rw [hmem] at hexec
  refine ⟨_, hexec, ⟨?_, ?_, ?_, ?_, ?_, ?_⟩, ?_, ?_⟩
  · simp [RegsKept]
  · simp
  · simp [Buffers]
  · simp
  · simp [ControlKept]
  · simp [Retired, newRec]
  · simp
  · simp [Logged, ErrCode.num]

/-- Settles O16: each width is the shared load procedure, out of range. -/
theorem outOfRangeLoadYieldsZeroAndLogs : Obligations.OutOfRangeLoadYieldsZeroAndLogs :=
  ⟨lb_runsAsLoad.zeroOutOfRange, lh_runsAsLoad.zeroOutOfRange, lw_runsAsLoad.zeroOutOfRange,
    ld_runsAsLoad.zeroOutOfRange⟩

/-- Settles O18: each width is the shared store procedure, out of range. -/
theorem outOfRangeStoreIsSkippedAndLogs : Obligations.OutOfRangeStoreIsSkippedAndLogs :=
  ⟨sb_runsAsStore.skippedOutOfRange, sh_runsAsStore.skippedOutOfRange,
    sw_runsAsStore.skippedOutOfRange, sd_runsAsStore.skippedOutOfRange⟩

end Sys2Proof.Machine
end

section
/-! PROOFS. No step writes the instruction space or a parameter, so a fetch answers the same for ever (R61, R81,
U12). -/

namespace Sys2Proof.Machine

/-- What a fetch depends on is as before: the instruction space and the parameters (R61, R62). -/
structure FetchKept (s t : State) : Prop where
  imem : t.imem = s.imem
  params : t.params = s.params

theorem FetchKept.refl (s : State) : FetchKept s s := ⟨rfl, rfl⟩

theorem FetchKept.trans {a b c : State} (h : FetchKept a b) (k : FetchKept b c) : FetchKept a c :=
  ⟨k.imem.trans h.imem, k.params.trans h.params⟩

theorem FetchKept.ifetch_eq {s t : State} (h : FetchKept s t) (a : Word) : t.ifetch a = s.ifetch a := by
  simp only [State.ifetch, h.imem, h.params]

theorem PhaseResult.fetchKept {s t : State} (h : PhaseResult s t) : FetchKept s t := by
  cases h with
  | completed | fetched | decodeError | decoded => exact ⟨rfl, rfl⟩
  | executed | accessed | retired => exact ⟨by simp, by simp⟩

theorem pipelinedStep_fetchKept (s t : State) (h : pipelinedStep s = .next t) : FetchKept s t := by
  obtain ⟨i, -, -, -, -, -, -, hs⟩ | ⟨e, fl, he, hs⟩ := pipelinedStep_cases s
  · rw [hs] at h
    cases h
    exact ⟨by simp, by simp⟩
  · rw [hs] at h
    have hback := pipelineBack_kept fl e t h
    exact FetchKept.trans ⟨he.imem, he.params⟩ ⟨hback.imem, hback.params⟩

theorem step_fetchKept (s t : State) (h : step s = .next t) : FetchKept s t := by
  cases hs : s.halted with
  | true =>
    rw [step_halted s hs] at h
    cases h
    exact .refl s
  | false =>
    cases hp : s.params.cfgPipelined with
    | true =>
      rw [step_pipelined s hs hp] at h
      exact pipelinedStep_fetchKept s t h
    | false =>
      rw [step_phased s hs hp] at h
      obtain ⟨himem, hparams⟩ := (phaseStep_result s t h).fetchKept
      exact ⟨himem, hparams⟩

/-- Settles O27: every step keeps what a fetch depends on, and so does any number of steps. -/
theorem fetchIsNeverChangedByRunning : Obligations.FetchIsNeverChangedByRunning := by
  intro n s t h
  have hkept : FetchKept s t :=
    stepN_induction FetchKept.refl FetchKept.trans step_fetchKept n s t h
  exact ⟨hkept.imem, hkept.params, hkept.ifetch_eq⟩

end Sys2Proof.Machine
end

section
/-! PROOFS. A step writes a byte only by the memory stage of an in-range store, at one of its addresses (R67, R69,
R205, R225). -/

namespace Sys2Proof.Machine

open Sys2Proof.Safety Sys2Proof.Claims

/-! ## What the memory stage writes -/

theorem State.space_congr {s t : State} (hd : s.data = t.data) (hk : s.stack = t.stack) (g : Region) :
    s.space g = t.space g := by
  cases g <;> assumption

theorem space_wf_of_base {s : State} (h : Base s) (g : Region) : Memory.wf (s.space g) = true := by
  cases g
  · exact h.dataWf
  · exact h.stackWf

/-- The byte at a of region g is one of the n at Z, all of them in the window of g (R65, R67). -/
structure ByteOfAccess (s : State) (n : Nat) (g : Region) (a : Nat) : Prop where
  inWindow : InWindow s.params g s.bufZ n
  lower : s.bufZ.toNat ≤ a
  upper : a < s.bufZ.toNat + n

theorem memoryLoad_space (n : Nat) (ext : BitVec (8 * n) → Word) (s : State) (g : Region) :
    (memoryLoad n ext s).space g = s.space g := by
  obtain ⟨_, _, _, _, _, h⟩ := memoryLoad_shape n ext s
  exact State.space_congr (by rw [h]) (by rw [h]) g

/-- A store that goes through writes its n bytes and no other; one out of range writes none (R67, R69). -/
theorem memoryStore_changed (n : Nat) (val : Word → BitVec (8 * n)) (s : State) (g : Region) (a : Nat)
    (hwf : Memory.wf (s.space g) = true) (hne : (memoryStore n val s).readByte g a ≠ s.readByte g a) :
    ByteOfAccess s n g a := by
  cases hacc : Params.accessRegion s.params s.bufZ n with
  | none =>
    rw [memoryStore_outOfRange n val s hacc] at hne
    exact absurd rfl hne
  | some q =>
    rw [memoryStore_inRange n val s q hacc, State.setY_readByte] at hne
    by_cases hq : g = q
    · subst hq
      have hin : s.bufZ.toNat ≤ a ∧ a < s.bufZ.toNat + n := by
        by_contra hout
        apply hne
        rw [State.readByte, State.setSpace_space_same]
        exact Memory.read_writeBytes_outside _ _ a _ hwf (by rw [leBytes_length]; omega)
      exact ⟨inWindow_of_accessRegion _ _ _ _ hacc, hin.1, hin.2⟩
    · rw [State.readByte, State.setSpace_space_ne s q g _ hq] at hne
      exact absurd rfl hne

/-- The memory stage changes a byte only for a store (R201, R205). -/
theorem memoryStage_changed (i : Rec) (s : State) (g : Region) (a : Nat)
    (hwf : Memory.wf (s.space g) = true) (hne : (memoryStage i s).readByte g a ≠ s.readByte g a) :
    ∃ n, storeWidth i.instr = some n ∧ ByteOfAccess s n g a := by
  obtain ⟨j, f, q, p, tk⟩ := i
  cases j
  case sb | sh | sw | sd => exact ⟨_, rfl, memoryStore_changed _ _ s g a hwf hne⟩
  case lb | lh | lw | ld =>
    exact absurd (congrArg (Memory.read · a) (memoryLoad_space _ _ s g)) hne
  all_goals exact absurd rfl hne

/-! ## What a step writes -/

theorem accessing_pipelined (s : State) (hp : s.params.cfgPipelined = true) :
    accessing s = s.slotX := by
  simp [accessing, hp]

theorem accessing_memory (s : State) (hp : s.params.cfgPipelined = false) (hph : s.phase = .memory) :
    accessing s = s.slotX := by
  simp [accessing, hp, hph]

theorem accessing_otherPhase (s : State) (hp : s.params.cfgPipelined = false)
    (hph : s.phase ≠ .memory) : accessing s = none := by
  simp [accessing, hp, hph]

/-- The space of region g after the memory stage of this step, where it has one. -/
def accessedSpace (s : State) (g : Region) : Memory :=
  (accessing s).elim (s.space g) fun i => (memoryStage i s).space g

theorem accessedSpace_beginStep (s : State) (g : Region) :
    accessedSpace s.beginStep g = accessedSpace s g := by
  have hstage : ∀ i, (memoryStage i s.beginStep).space g = (memoryStage i s).space g := fun i => by
    obtain ⟨-, hd, hk⟩ := memoryStage_congr i s.beginStep s rfl rfl rfl rfl rfl
    exact State.space_congr hd hk g
  simp only [accessedSpace, hstage]
  rfl

/-- Every phase but MEMORY leaves both spaces alone. -/
theorem PhaseResult.space_eq {s t : State} (h : PhaseResult s t) (hp : s.phase ≠ .memory)
    (g : Region) : t.space g = s.space g := by
  cases h with
  | accessed _ hph => exact absurd hph hp
  | completed | fetched | decodeError | decoded => rfl
  | executed | retired => simp

theorem PhaseResult.accessed_space {s t : State} (h : PhaseResult s t)
    (hp : s.params.cfgPipelined = false) (g : Region) : t.space g = accessedSpace s g := by
  by_cases hph : s.phase = .memory
  · cases h with
    | accessed i _ hX => rw [accessedSpace, accessing_memory s hp hph, hX]; rfl
    | completed hq | fetched _ hq | decodeError _ _ hq | decoded _ _ hq | executed _ hq | retired _ hq =>
      cases hq.symm.trans hph
  · rw [accessedSpace, accessing_otherPhase s hp hph, h.space_eq hph]
    rfl

theorem pipelinedStep_space (s t : State) (hp : s.params.cfgPipelined = true)
    (h : pipelinedStep s = .next t) (g : Region) : t.space g = accessedSpace s g := by
  rw [accessedSpace, accessing_pipelined s hp]
  obtain ⟨i, -, -, -, hX, -, -, hs⟩ | ⟨e, fl, he, hs⟩ := pipelinedStep_cases s
  · rw [hs] at h
    cases h
    simp [hX]
  · rw [hs] at h
    have hback := pipelineBack_kept fl e t h
    have hd := hback.data.trans he.data
    have hk := hback.stack.trans he.stack
    cases hX : s.slotX <;> rw [hX] at hd hk <;> exact State.space_congr hd hk g

/-- In either mode each space is left as the memory stage of this step leaves it. -/
theorem step_space (s t : State) (hs : s.halted = false) (h : step s = .next t) (g : Region) :
    t.space g = accessedSpace s g := by
  cases hp : s.params.cfgPipelined with
  | true =>
    rw [step_pipelined s hs hp] at h
    exact pipelinedStep_space s t hp h g
  | false =>
    rw [step_phased s hs hp] at h
    rw [(phaseStep_result s t h).accessed_space hp g, accessedSpace_beginStep]

/-- Settles O34: `step_space`, and the memory stage that runs is then a store with the byte among its own. -/
theorem bytesWrittenOnlyByAStoresMemoryStage : Obligations.BytesWrittenOnlyByAStoresMemoryStage := by
  intro s t hbase hs h g a hne
  rw [State.readByte, step_space s t hs h g, accessedSpace] at hne
  cases hi : accessing s with
  | none =>
    rw [hi] at hne
    exact absurd rfl hne
  | some i =>
    rw [hi] at hne
    obtain ⟨n, hn, hwin, hlo, hhi⟩ := memoryStage_changed i s g a (space_wf_of_base hbase g) hne
    exact ⟨i, n, rfl, hn, hwin, hlo, hhi⟩

end Sys2Proof.Machine
end

section
/-! PROOFS. The word of the fields is the word, and every immediate read off a word is representable: so a word that
decodes is the encoding of what it decodes to (R92 to R98, R108). -/

namespace Sys2Proof

/-- Settles O2: the law `decode_encode`. -/
theorem decodeOfEncodeIsTheInstruction : Obligations.DecodeOfEncodeIsTheInstruction := decode_encode

/-! ## Putting a word's fields and its immediate together gives the word -/

theorem encR_fields (w : Word) :
    encR (funct7Field w) (rs2Field w) (rs1Field w) (funct3Field w) (rdField w) (opcodeField w) = w := by
  apply BitVec.eq_of_getLsbD_eq
  intro i hi
  simp only [encR, funct7Field, rs2Field, rs1Field, funct3Field, rdField, opcodeField,
    BitVec.getLsbD_extractLsb', BitVec.getLsbD_append]
  grind

theorem encI_fields (w : Word) :
    encI (immI w) (rs1Field w) (funct3Field w) (rdField w) (opcodeField w) = w := by
  apply BitVec.eq_of_getLsbD_eq
  intro i hi
  simp only [encI, immI, rs1Field, funct3Field, rdField, opcodeField,
    BitVec.getLsbD_extractLsb', BitVec.getLsbD_append, BitVec.getLsbD_signExtend]
  grind

theorem encS_fields (w : Word) :
    encS (immS w) (rs2Field w) (rs1Field w) (funct3Field w) (opcodeField w) = w := by
  apply BitVec.eq_of_getLsbD_eq
  intro i hi
  simp only [encS, immS, rs2Field, rs1Field, funct3Field, opcodeField,
    BitVec.getLsbD_extractLsb', BitVec.getLsbD_append, BitVec.getLsbD_signExtend]
  grind

theorem encB_fields (w : Word) :
    encB (immB w) (rs2Field w) (rs1Field w) (funct3Field w) (opcodeField w) = w := by
  apply BitVec.eq_of_getLsbD_eq
  intro i hi
  simp only [encB, immB, rs2Field, rs1Field, funct3Field, opcodeField,
    BitVec.getLsbD_extractLsb', BitVec.getLsbD_append, BitVec.getLsbD_signExtend]
  grind

theorem encU_fields (w : Word) : encU (immU w) (rdField w) (opcodeField w) = w := by
  apply BitVec.eq_of_getLsbD_eq
  intro i hi
  simp only [encU, immU, rdField, opcodeField,
    BitVec.getLsbD_extractLsb', BitVec.getLsbD_append, BitVec.getLsbD_signExtend]
  grind

theorem encUJ_fields (w : Word) : encUJ (immUJ w) (rdField w) (opcodeField w) = w := by
  apply BitVec.eq_of_getLsbD_eq
  intro i hi
  simp only [encUJ, immUJ, rdField, opcodeField,
    BitVec.getLsbD_extractLsb', BitVec.getLsbD_append, BitVec.getLsbD_signExtend]
  grind

/-! The same, when the opcode and the function codes of the word are known. -/

theorem encR_of_fields {w : Word} {f7 : BitVec 7} {f3 : BitVec 3} {op : BitVec 7} (h7 : funct7Field w = f7)
    (h3 : funct3Field w = f3) (hop : opcodeField w = op) :
    encR f7 (rs2Field w) (rs1Field w) f3 (rdField w) op = w := by
  rw [← h7, ← h3, ← hop, encR_fields]

theorem encI_of_fields {w : Word} {f3 : BitVec 3} {op : BitVec 7} (h3 : funct3Field w = f3)
    (hop : opcodeField w = op) : encI (immI w) (rs1Field w) f3 (rdField w) op = w := by
  rw [← h3, ← hop, encI_fields]

theorem encS_of_fields {w : Word} {f3 : BitVec 3} {op : BitVec 7} (h3 : funct3Field w = f3)
    (hop : opcodeField w = op) : encS (immS w) (rs2Field w) (rs1Field w) f3 op = w := by
  rw [← h3, ← hop, encS_fields]

theorem encB_of_fields {w : Word} {f3 : BitVec 3} {op : BitVec 7} (h3 : funct3Field w = f3)
    (hop : opcodeField w = op) : encB (immB w) (rs2Field w) (rs1Field w) f3 op = w := by
  rw [← h3, ← hop, encB_fields]

theorem encU_of_fields {w : Word} {op : BitVec 7} (hop : opcodeField w = op) :
    encU (immU w) (rdField w) op = w := by
  rw [← hop, encU_fields]

theorem encUJ_of_fields {w : Word} {op : BitVec 7} (hop : opcodeField w = op) :
    encUJ (immUJ w) (rdField w) op = w := by
  rw [← hop, encUJ_fields]

/-! ## The immediates are in their ranges -/

theorem fitsSigned_signExtend {n : Nat} (hn : n ≤ 32) (x : BitVec n) : fitsSigned n (x.signExtend 32) := by
  rw [fitsSigned, BitVec.toInt_signExtend_of_le hn]
  exact ⟨BitVec.le_toInt x, BitVec.toInt_lt⟩

theorem isEven_of_bit0 (m : Word) (h : m.getLsbD 0 = false) : isEven m := by
  rw [← BitVec.testBit_toNat] at h
  simpa [Nat.testBit_zero] using h

theorem fitsSigned_immI (w : Word) : fitsSigned 12 (immI w) := fitsSigned_signExtend (by decide) _
theorem fitsSigned_immS (w : Word) : fitsSigned 12 (immS w) := fitsSigned_signExtend (by decide) _
theorem fitsSigned_immB (w : Word) : fitsSigned 13 (immB w) := fitsSigned_signExtend (by decide) _
theorem fitsSigned_immU (w : Word) : fitsSigned 20 (immU w) := fitsSigned_signExtend (by decide) _
theorem fitsSigned_immUJ (w : Word) : fitsSigned 21 (immUJ w) := fitsSigned_signExtend (by decide) _

theorem isEven_immB (w : Word) : isEven (immB w) :=
  isEven_of_bit0 _ (by simp only [immB, BitVec.getLsbD_signExtend, BitVec.getLsbD_append]; rfl)

theorem isEven_immUJ (w : Word) : isEven (immUJ w) :=
  isEven_of_bit0 _ (by simp only [immUJ, BitVec.getLsbD_signExtend, BitVec.getLsbD_append]; rfl)

/-! ## Each opcode's decoder answers for the word -/

/-- What the decoder of a known opcode may answer for w: a representable instruction that encodes to w, or an unknown
function code, but never an unknown opcode (R103, R104, R108). -/
def Decoded.AnswersFor (w : Word) : Decoded → Prop
  | .ok i => i.WellFormed ∧ encode i = w
  | .unknownFunct => True
  | .unknownOpcode => False

theorem decodeR_answersFor (w : Word) (hop : opcodeField w = opR) : (decodeR w).AnswersFor w := by
  simp only [decodeR]
  split_ifs
  any_goals exact True.intro
  all_goals exact ⟨rfl, encR_of_fields ‹_› ‹_› hop⟩

theorem decodeI_answersFor (w : Word) (hop : opcodeField w = opI) : (decodeI w).AnswersFor w := by
  have hm := decide_eq_true (fitsSigned_immI w)
  simp only [decodeI]
  split_ifs
  any_goals exact True.intro
  all_goals exact ⟨hm, encI_of_fields ‹_› hop⟩

theorem decodeLoad_answersFor (w : Word) (hop : opcodeField w = opLoad) : (decodeLoad w).AnswersFor w := by
  have hm := decide_eq_true (fitsSigned_immI w)
  simp only [decodeLoad]
  split_ifs
  any_goals exact True.intro
  all_goals exact ⟨hm, encI_of_fields ‹_› hop⟩

theorem decodeJalr_answersFor (w : Word) (hop : opcodeField w = opJalr) : (decodeJalr w).AnswersFor w := by
  have hm := decide_eq_true (fitsSigned_immI w)
  simp only [decodeJalr]
  split_ifs
  any_goals exact True.intro
  all_goals exact ⟨hm, encI_of_fields ‹_› hop⟩

theorem decodeStore_answersFor (w : Word) (hop : opcodeField w = opStore) : (decodeStore w).AnswersFor w := by
  have hm := decide_eq_true (fitsSigned_immS w)
  simp only [decodeStore]
  split_ifs
  any_goals exact True.intro
  all_goals exact ⟨hm, encS_of_fields ‹_› hop⟩

theorem decodeBranch_answersFor (w : Word) (hop : opcodeField w = opBranch) : (decodeBranch w).AnswersFor w := by
  have hm := decide_eq_true (And.intro (fitsSigned_immB w) (isEven_immB w))
  simp only [decodeBranch]
  split_ifs
  any_goals exact True.intro
  all_goals exact ⟨hm, encB_of_fields ‹_› hop⟩

/-- The nine opcodes (R101). -/
def knownOpcodes : List (BitVec 7) :=
  [opR, opI, opLoad, opJalr, opStore, opBranch, opLui, opAuipc, opJal]

theorem decode_of_not_mem (w : Word) (h : opcodeField w ∉ knownOpcodes) : decode w = .unknownOpcode := by
  simp only [knownOpcodes, List.mem_cons, not_or] at h
  simp [decode, h]

theorem decode_answersFor (w : Word) (h : opcodeField w ∈ knownOpcodes) : (decode w).AnswersFor w := by
  simp only [decode]
  split_ifs with hR hI hLoad hJalr hStore hBranch hLui hAuipc hJal
  · exact decodeR_answersFor w hR
  · exact decodeI_answersFor w hI
  · exact decodeLoad_answersFor w hLoad
  · exact decodeJalr_answersFor w hJalr
  · exact decodeStore_answersFor w hStore
  · exact decodeBranch_answersFor w hBranch
  · exact ⟨decide_eq_true (fitsSigned_immU w), encU_of_fields hLui⟩
  · exact ⟨decide_eq_true (fitsSigned_immU w), encU_of_fields hAuipc⟩
  · exact ⟨decide_eq_true ⟨fitsSigned_immUJ w, isEven_immUJ w⟩, encUJ_of_fields hJal⟩
  · simp_all [knownOpcodes]

/-- Settles O3: a word that decodes has a known opcode, whose decoder answers for the word. -/
theorem encodeOfDecodeIsTheWord : Obligations.EncodeOfDecodeIsTheWord := by
  intro w i h
  by_cases hop : opcodeField w ∈ knownOpcodes
  · have hans := decode_answersFor w hop
    rwa [h] at hans
  · rw [decode_of_not_mem w hop] at h
    cases h

end Sys2Proof
end

section
/-! PROOFS. A word decodes if and only if it carries the opcode and the function codes of a row; the rows exclude
each other; and the two refusals are told apart by the opcode (R101 to R105). -/

namespace Sys2Proof

open Sys2Proof.Claims

/-! ## A row's match and mask as the fields they check -/

/-- The mask of a function code: all ones where the format has the field, zeros where it is absent (R102). -/
def maskOf {n : Nat} (c : Option (BitVec n)) : BitVec n := if c.isSome then BitVec.allOnes n else 0

/-- The mask of the instruction's row: the fields its format checks (R102). -/
def Instr.rowMask (i : Instr) : Word :=
  encR (maskOf i.funct7) 0 0 (maskOf i.funct3) 0 (BitVec.allOnes 7)

/-- The match of the instruction's row: its opcode and function codes (R102). -/
def Instr.rowMatch (i : Instr) : Word := encR (i.funct7.getD 0) 0 0 (i.funct3.getD 0) 0 i.opcode

/-- The word carries the instruction's opcode and the function codes its format has (R102). -/
structure Instr.Fits (i : Instr) (w : Word) : Prop where
  opcode : opcodeField w = i.opcode
  funct3 : ∀ c, i.funct3 = some c → funct3Field w = c
  funct7 : ∀ c, i.funct7 = some c → funct7Field w = c

theorem and_maskOf_eq_iff {n : Nat} (x : BitVec n) (c : Option (BitVec n)) :
    x &&& maskOf c = c.getD 0 ↔ ∀ d, c = some d → x = d := by
  cases c <;> simp [maskOf]

/-- A word under a mask of the checked fields is those fields, each under its own mask. -/
theorem and_encR_eq_iff (w : Word) (k7 f7 : BitVec 7) (k3 f3 : BitVec 3) (ko op : BitVec 7) :
    w &&& encR k7 0 0 k3 0 ko = encR f7 0 0 f3 0 op ↔
      funct7Field w &&& k7 = f7 ∧ funct3Field w &&& k3 = f3 ∧ opcodeField w &&& ko = op := by
  have hand : w &&& encR k7 0 0 k3 0 ko =
      encR (funct7Field w &&& k7) 0 0 (funct3Field w &&& k3) 0 (opcodeField w &&& ko) := by
    conv_lhs => rw [← encR_fields w]
    apply BitVec.eq_of_getLsbD_eq
    intro i hi
    simp only [encR, BitVec.getLsbD_and, BitVec.getLsbD_append]
    grind
  rw [hand]
  constructor
  · intro h
    exact ⟨by simpa using congrArg funct7Field h, by simpa using congrArg funct3Field h,
      by simpa using congrArg opcodeField h⟩
  · rintro ⟨rfl, rfl, rfl⟩
    rfl

theorem Instr.fits_iff (i : Instr) (w : Word) : i.Fits w ↔ w &&& i.rowMask = i.rowMatch := by
  rw [Instr.rowMask, Instr.rowMatch, and_encR_eq_iff, and_maskOf_eq_iff, and_maskOf_eq_iff,
    BitVec.and_allOnes]
  exact ⟨fun ⟨hop, h3, h7⟩ => ⟨h7, h3, hop⟩, fun ⟨h7, h3, hop⟩ => ⟨hop, h3, h7⟩⟩

/-- One instruction for each row of R102, in the table's order. -/
def rowInstrs : List Instr :=
  [.add 0 0 0, .sub 0 0 0, .sll 0 0 0, .slt 0 0 0, .xor 0 0 0, .srl 0 0 0, .sra 0 0 0, .or 0 0 0, .and 0 0 0,
   .mul 0 0 0, .div 0 0 0, .rem 0 0 0, .addi 0 0 0, .andi 0 0 0, .ori 0 0 0, .lb 0 0 0, .lh 0 0 0, .lw 0 0 0,
   .ld 0 0 0, .jalr 0 0 0, .sb 0 0 0, .sh 0 0 0, .sw 0 0 0, .sd 0 0 0, .beq 0 0 0, .bne 0 0 0, .blt 0 0 0,
   .bge 0 0 0, .lui 0 0, .auipc 0 0, .jal 0 0]

theorem opcodeRows_eq : opcodeRows = rowInstrs.map fun i => (i.rowMatch, i.rowMask) := by decide

theorem row_mem_opcodeRows (i : Instr) : (i.rowMatch, i.rowMask) ∈ opcodeRows := by
  simp only [Instr.rowMatch, Instr.rowMask]
  cases i <;> simp only [Instr.funct7, Instr.funct3, Instr.opcode] <;> decide

/-- A row of the table fits a word exactly when some instruction's opcode and function codes do. -/
theorem exists_row_iff_fits (w : Word) :
    (∃ row ∈ opcodeRows, w &&& row.2 = row.1) ↔ ∃ i : Instr, i.Fits w := by
  constructor
  · rintro ⟨row, hmem, hrow⟩
    rw [opcodeRows_eq, List.mem_map] at hmem
    obtain ⟨i, -, rfl⟩ := hmem
    exact ⟨i, (i.fits_iff w).2 hrow⟩
  · rintro ⟨i, hi⟩
    exact ⟨_, row_mem_opcodeRows i, (i.fits_iff w).1 hi⟩

/-! ## A word decodes exactly when a row fits it -/

theorem Instr.fits_encode (i : Instr) : i.Fits (encode i) := by
  cases i <;> constructor <;> simp [encode, Instr.opcode, Instr.funct3, Instr.funct7]

/-- The opcode selects the format's decoder, and the function codes one of its rows (R100). -/
theorem Instr.Fits.decodes {i : Instr} {w : Word} (h : i.Fits w) : ∃ j, decode w = .ok j := by
  obtain ⟨hop, h3, h7⟩ := h
  cases i
  case add | sub | sll | slt | xor | srl | sra | or | and | mul | div | rem =>
    simp [decode, decodeR, hop, h3 _ rfl, h7 _ rfl, Instr.opcode]
  case addi | andi | ori => simp [decode, decodeI, hop, h3 _ rfl, Instr.opcode, opI, opR]
  case lb | lh | lw | ld => simp [decode, decodeLoad, hop, h3 _ rfl, Instr.opcode, opLoad, opI, opR]
  case jalr => simp [decode, decodeJalr, hop, h3 _ rfl, Instr.opcode, opJalr, opLoad, opI, opR]
  case sb | sh | sw | sd =>
    simp [decode, decodeStore, hop, h3 _ rfl, Instr.opcode, opStore, opJalr, opLoad, opI, opR]
  case beq | bne | blt | bge =>
    simp [decode, decodeBranch, hop, h3 _ rfl, Instr.opcode, opBranch, opStore, opJalr, opLoad, opI, opR]
  case lui | auipc | jal =>
    simp [decode, hop, Instr.opcode, opJal, opAuipc, opLui, opBranch, opStore, opJalr, opLoad, opI, opR]

theorem decode_ok_iff_row (w : Word) :
    (∃ i, decode w = .ok i) ↔ ∃ row ∈ opcodeRows, w &&& row.2 = row.1 := by
  rw [exists_row_iff_fits]
  constructor
  · rintro ⟨i, hi⟩
    obtain ⟨-, hw⟩ := encodeOfDecodeIsTheWord w i hi
    exact ⟨i, hw ▸ i.fits_encode⟩
  · rintro ⟨i, hi⟩
    exact hi.decodes

/-! ## At most one row fits a word -/

/-- Two rows that fit a word agree on the bits both of them check. -/
theorem rows_agree_of_fit {w : Word} {a b : Word × Word} (ha : w &&& a.2 = a.1) (hb : w &&& b.2 = b.1) :
    a.1 &&& b.2 = b.1 &&& a.2 := by
  rw [← ha, ← hb, BitVec.and_assoc, BitVec.and_assoc, BitVec.and_comm a.2]

theorem opcodeRows_disagree : opcodeRows.Pairwise fun a b => a.1 &&& b.2 ≠ b.1 &&& a.2 := by decide

theorem fittingRows_length_le_one (w : Word) :
    (opcodeRows.filter fun row => w &&& row.2 == row.1).length ≤ 1 := by
  have hfit : ∀ row ∈ opcodeRows.filter fun row => w &&& row.2 == row.1, w &&& row.2 = row.1 := by
    simp
  have hdis := opcodeRows_disagree.filter fun row => w &&& row.2 == row.1
  generalize (opcodeRows.filter fun row => w &&& row.2 == row.1) = l at hfit hdis ⊢
  match l with
  | [] | [_] => simp
  | a :: b :: l =>
    have hab : a.1 &&& b.2 ≠ b.1 &&& a.2 := (List.pairwise_cons.1 hdis).1 b (by simp)
    exact absurd (rows_agree_of_fit (hfit a (by simp)) (hfit b (by simp))) hab

/-- Settles O4: a word decodes exactly when a row fits it, and the rows exclude each other. -/
theorem everyWordSpellsOneRowOrIsRefused : Obligations.EveryWordSpellsOneRowOrIsRefused :=
  fun w => ⟨decode_ok_iff_row w, fittingRows_length_le_one w⟩

/-! ## The two refusals -/

theorem decode_unknownOpcode_iff (w : Word) :
    decode w = .unknownOpcode ↔ opcodeField w ∉ knownOpcodes := by
  refine ⟨fun h hop => ?_, decode_of_not_mem w⟩
  have hans := decode_answersFor w hop
  rwa [h] at hans

theorem decode_unknownFunct_iff (w : Word) :
    decode w = .unknownFunct ↔ decode w ≠ .unknownOpcode ∧ ¬ ∃ i, decode w = .ok i := by
  cases decode w <;> simp

/-- Settles O5: an unknown function code is what is left when the opcode is known and no row fits. -/
theorem refusalsAreByName : Obligations.RefusalsAreByName := by
  intro w
  have hop := decode_unknownOpcode_iff w
  refine ⟨hop, ?_⟩
  rw [decode_unknownFunct_iff, decode_ok_iff_row, ne_eq, hop, not_not]
  simp only [not_exists, not_and]
  exact Iff.rfl

end Sys2Proof
end

section
/-! PROOFS. The record's absent fields by format, the capability tags by opcode, the effective destination (R31, R99,
R107). -/

namespace Sys2Proof

theorem Instr.rd_eq_none_iff (i : Instr) : i.rd = none ↔ i.fmt = .S ∨ i.fmt = .B := by
  cases i <;> simp [Instr.rd, Instr.fmt]

theorem Instr.rs2_eq_none_iff (i : Instr) : i.rs2 = none ↔ i.fmt = .I ∨ i.fmt = .U ∨ i.fmt = .UJ := by
  cases i <;> simp [Instr.rs2, Instr.fmt]

theorem Instr.rs1_eq_none_iff (i : Instr) : i.rs1 = none ↔ i.fmt = .U ∨ i.fmt = .UJ := by
  cases i <;> simp [Instr.rs1, Instr.fmt]

theorem Instr.isJump_iff (i : Instr) : i.isJump = true ↔ i.opcode = opJal ∨ i.opcode = opJalr := by
  rw [Instr.isJump, Bool.or_eq_true, decide_eq_true_iff, decide_eq_true_iff]

theorem Instr.effDest_eq_some_iff (i : Instr) (r : Reg) : i.effDest = some r ↔ i.rd = some r ∧ r ≠ 0#5 := by
  unfold Instr.effDest
  cases i.rd with
  | none => simp
  | some q => by_cases hq : q = 0#5 <;> grind

/-- Settles O6: the tags are defined by the opcode; the rest by the format and the rd field. -/
theorem recordFieldsByFormat : Obligations.RecordFieldsByFormat := fun i =>
  ⟨i.rd_eq_none_iff, i.rs2_eq_none_iff, i.rs1_eq_none_iff, decide_eq_true_iff, decide_eq_true_iff,
    decide_eq_true_iff, i.isJump_iff, i.effDest_eq_some_iff⟩

end Sys2Proof
end

section
/-! PROOFS. Which words spell an instruction: those whose masked bits are its row's match (R92, R102). -/

namespace Sys2Proof

open Sys2Proof.Claims

/-- The decoder answers a representable instruction exactly on its encoding (R108). -/
theorem decode_eq_ok_iff {i : Instr} (hwf : i.WellFormed) (w : Word) : decode w = .ok i ↔ encode i = w := by
  constructor
  · exact fun h => (encodeOfDecodeIsTheWord w i h).2
  · rintro rfl
    exact decode_encode i hwf

/-- The R-format row with these function codes is spelled by its opcode and them; the operands are free (R92). -/
theorem spells_rWord {c : Reg → Reg → Reg → Instr} {f7 : BitVec 7} {f3 : BitVec 3} {mtch : Word}
    (hrow : ∀ rd rs1 rs2, (c rd rs1 rs2).WellFormed ∧ encode (c rd rs1 rs2) = encR f7 rs2 rs1 f3 rd opR)
    (hmtch : encR f7 0 0 f3 0 opR = mtch) : Spells 0xFE00707F#32 mtch (rWord c) := by
  intro w
  have hmask : encR (BitVec.allOnes 7) 0 0 (BitVec.allOnes 3) 0 (BitVec.allOnes 7) = 0xFE00707F#32 := by decide
  obtain ⟨hwf, henc⟩ := hrow (rdField w) (rs1Field w) (rs2Field w)
  calc decode w = .ok (rWord c w)
    _ ↔ encR f7 (rs2Field w) (rs1Field w) f3 (rdField w) opR = w := henc ▸ decode_eq_ok_iff hwf w
    _ ↔ funct7Field w = f7 ∧ funct3Field w = f3 ∧ opcodeField w = opR := by
      refine ⟨fun h => ?_, fun ⟨h7, h3, hop⟩ => encR_of_fields h7 h3 hop⟩
      rw [← h]
      simp
    _ ↔ w &&& 0xFE00707F#32 = mtch := by
      rw [← hmask, ← hmtch, and_encR_eq_iff]
      simp only [BitVec.and_allOnes]

end Sys2Proof
end

section
/-! PROOFS. An instruction run alone that writes one result: the state it leaves, and the shared shapes of the
R-format instructions (R120, R201, R222 to R226). -/

namespace Sys2Proof.Machine

open Sys2Proof.Claims

/-- What the execute stage of an instruction run alone starts from: pc advanced, the instruction counted, the
operands in A and B (R201, R222, R223). -/
abbrev State.withOperands (s : State) (a b : Word) : State := (s.setPc (s.pc + 4#32)).countDecode.setAB a b

/-- The result v through Z and Y to rd, and the writeback's event (R201, R226). -/
abbrev State.retireResult (s : State) (r : Rec) (rd : Reg) (v : Word) : State :=
  (((s.setZ v).setY v).beginStep.writeReg rd v).emit (.wb r)

/-- u is `s.withOperands a b` but for the error registers and the trace: an execute stage that only computes may have
logged a zero divisor, and no more (R201, R304). -/
def HoldsOperands (s : State) (a b : Word) (u : State) : Prop :=
  ∃ seen code info tr, u =
    { s.withOperands a b with errSeen := seen, errCode := code, errInfo := info, trace := tr }

theorem holdsOperands_withOperands (s : State) (a b : Word) : HoldsOperands s a b (s.withOperands a b) :=
  ⟨_, _, _, _, rfl⟩

theorem holdsOperands_log (s : State) (a b : Word) (c : ErrCode) (info : Word) :
    HoldsOperands s a b ((s.withOperands a b).log c info) := ⟨_, _, _, _, rfl⟩

/-- Whatever was logged, the instruction writes its result and changes nothing but pc, the buffers and the decode
counter. -/
theorem HoldsOperands.writesResult {s u : State} {a b : Word} (h : HoldsOperands s a b u) (i : Instr) (rd : Reg)
    (v : Word) :
    WritesResult i s (u.retireResult (newRec i s.pc (s.seqCtr + 1)) rd v) rd a b v := by
  obtain ⟨seen, code, info, tr, rfl⟩ := h
  refine ⟨fun r => State.readReg_writeReg _ rd r v, rfl, ?_, ?_, ?_, ?_⟩
  · simp [Buffers]
  · exact ⟨rfl, fun g _ => by cases g <;> rfl⟩
  · simp [ControlKept]
  · simp [Retired, newRec]

/-- The constructor c runs alone as `Z <- f(A, B)`, and nothing is logged (R120). -/
def RunsAsAlu (c : Reg → Reg → Reg → Instr) (f : Word → Word → Word) : Prop :=
  ∀ rd rs1 rs2 s, exec (c rd rs1 rs2) s =
    .next ((s.withOperands (s.readReg rs1) (s.readReg rs2)).retireResult
      (newRec (c rd rs1 rs2) s.pc (s.seqCtr + 1)) rd (f (s.readReg rs1) (s.readReg rs2)))

/-- The constructor c runs alone as `Z <- f(A, B)` after logging a zero divisor (R131, R132, R304). -/
def RunsAsDivide (c : Reg → Reg → Reg → Instr) (f : Params → Word → Word → Word) : Prop :=
  ∀ rd rs1 rs2 s, exec (c rd rs1 rs2) s =
    .next ((if s.readReg rs2 = 0#32 then (s.withOperands (s.readReg rs1) (s.readReg rs2)).log .divZero s.pc
        else s.withOperands (s.readReg rs1) (s.readReg rs2)).retireResult
      (newRec (c rd rs1 rs2) s.pc (s.seqCtr + 1)) rd (f s.params (s.readReg rs1) (s.readReg rs2)))

theorem add_runsAsAlu : RunsAsAlu .add aluAdd := fun _ _ _ _ => rfl
theorem sub_runsAsAlu : RunsAsAlu .sub aluSub := fun _ _ _ _ => rfl
theorem sll_runsAsAlu : RunsAsAlu .sll aluSll := fun _ _ _ _ => rfl
theorem slt_runsAsAlu : RunsAsAlu .slt aluSlt := fun _ _ _ _ => rfl
theorem xor_runsAsAlu : RunsAsAlu .xor aluXor := fun _ _ _ _ => rfl
theorem srl_runsAsAlu : RunsAsAlu .srl aluSrl := fun _ _ _ _ => rfl
theorem sra_runsAsAlu : RunsAsAlu .sra aluSra := fun _ _ _ _ => rfl
theorem or_runsAsAlu : RunsAsAlu .or aluOr := fun _ _ _ _ => rfl
theorem and_runsAsAlu : RunsAsAlu .and aluAnd := fun _ _ _ _ => rfl
theorem mul_runsAsAlu : RunsAsAlu .mul aluMul := fun _ _ _ _ => rfl
theorem div_runsAsDivide : RunsAsDivide .div aluDiv := fun _ _ _ _ => rfl
theorem rem_runsAsDivide : RunsAsDivide .rem aluRem := fun _ _ _ _ => rfl

theorem RunsAsAlu.computesR {c : Reg → Reg → Reg → Instr} {f g : Word → Word → Word} (h : RunsAsAlu c f)
    (hfg : ∀ a b, f a b = g a b) : ComputesR c g := by
  intro rd rs1 rs2 s
  refine ⟨_, h rd rs1 rs2 s, ?_, ?_⟩
  · rw [← hfg]
    exact (holdsOperands_withOperands s _ _).writesResult _ rd _
  · simp [ErrorsKept]

/-- By the divisor: the two branches differ in the error registers alone, which `WritesResult` does not speak of. -/
theorem RunsAsDivide.computesDivide {c : Reg → Reg → Reg → Instr} {f g : Params → Word → Word → Word}
    (h : RunsAsDivide c f) (hfg : ∀ p a b, f p a b = g p a b) : ComputesDivide c g := by
  intro rd rs1 rs2 s
  refine ⟨_, h rd rs1 rs2 s, ?_⟩
  rw [← hfg]
  by_cases hb : s.readReg rs2 = 0#32
  · rw [if_pos hb]
    refine ⟨(holdsOperands_log s _ _ _ _).writesResult _ rd _, fun _ => ?_, absurd hb⟩
    simp [Logged, ErrCode.num]
  · rw [if_neg hb]
    refine ⟨(holdsOperands_withOperands s _ _).writesResult _ rd _, fun h0 => absurd h0 hb, fun _ => ?_⟩
    simp [ErrorsKept]

end Sys2Proof.Machine
end

section
/-! PROOFS. The ALU functions as the arithmetic of the register-register rules (R121 to R133). -/

namespace Sys2Proof.Machine

/-! ## Sums, products, comparison and logic -/

theorem aluAdd_eq (a b : Word) : aluAdd a b = BitVec.ofNat 32 ((a.toNat + b.toNat) % 2 ^ 32) := by
  apply BitVec.eq_of_toNat_eq
  simp [aluAdd]

theorem aluSub_eq (a b : Word) : aluSub a b = BitVec.ofInt 32 (((a.toNat : Int) - b.toNat) % 2 ^ 32) := by
  apply BitVec.eq_of_toNat_eq
  rw [aluSub, BitVec.toNat_sub, BitVec.toNat_ofInt]
  omega

theorem aluMul_eq_unsigned (a b : Word) : aluMul a b = BitVec.ofNat 32 (a.toNat * b.toNat % 2 ^ 32) := by
  apply BitVec.eq_of_toNat_eq
  simp [aluMul]

theorem aluMul_eq_signed (a b : Word) : aluMul a b = BitVec.ofInt 32 (a.toInt * b.toInt) := by
  rw [BitVec.ofInt_mul, BitVec.ofInt_toInt, BitVec.ofInt_toInt, aluMul]

theorem aluSlt_eq (a b : Word) :
    aluSlt a b = if a.toInt < b.toInt then 0x00000001#32 else 0x00000000#32 := by
  simp [aluSlt, condLt]

theorem aluXor_eq (a b : Word) :
    aluXor a b = BitVec.ofFnLE fun k : Fin 32 => Bool.xor (a.getLsbD k) (b.getLsbD k) := by
  ext k hk
  simp [aluXor]

theorem aluOr_eq (a b : Word) : aluOr a b = BitVec.ofFnLE fun k : Fin 32 => a.getLsbD k || b.getLsbD k := by
  ext k hk
  simp [aluOr]

theorem aluAnd_eq (a b : Word) : aluAnd a b = BitVec.ofFnLE fun k : Fin 32 => a.getLsbD k && b.getLsbD k := by
  ext k hk
  simp [aluAnd]

/-! ## Shifts -/

theorem shiftAmount_eq (b : Word) : shiftAmount b = b.toNat % 32 := by
  simp [shiftAmount, BitVec.extractLsb'_toNat]

theorem aluSll_eq (a b : Word) :
    aluSll a b = BitVec.ofNat 32 (a.toNat * 2 ^ (b.toNat % 32) % 2 ^ 32) := by
  apply BitVec.eq_of_toNat_eq
  simp [aluSll, shiftAmount_eq, Nat.shiftLeft_eq]

theorem aluSrl_eq (a b : Word) : aluSrl a b = BitVec.ofNat 32 (a.toNat / 2 ^ (b.toNat % 32)) := by
  have hlt : a.toNat / 2 ^ (b.toNat % 32) < 2 ^ 32 := (Nat.div_le_self _ _).trans_lt a.isLt
  apply BitVec.eq_of_toNat_eq
  rw [aluSrl, shiftAmount_eq, BitVec.toNat_ushiftRight, Nat.shiftRight_eq_div_pow, BitVec.toNat_ofNat,
    Nat.mod_eq_of_lt hlt]

/-- The arithmetic shift rounds down, as `fdiv` does by a positive divisor. -/
theorem aluSra_eq (a b : Word) :
    aluSra a b = BitVec.ofInt 32 (Int.fdiv a.toInt (2 ^ (b.toNat % 32))) := by
  rw [aluSra, shiftAmount_eq, BitVec.sshiftRight_eq, Int.shiftRight_eq_div_pow,
    Int.fdiv_eq_ediv_of_nonneg _ (by positivity), Int.natCast_pow, Int.cast_ofNat_Int]

/-! ## Division by the sign table of R133 -/

theorem isDivOverflow_iff (a b : Word) :
    isDivOverflow a b = true ↔ a = 0x80000000#32 ∧ b = 0xFFFFFFFF#32 := by
  simp [isDivOverflow]

/-- The truncating quotient is, up to sign, the floor of the quotient of the magnitudes. -/
theorem tdiv_eq_signTable (a b : Int) :
    a.tdiv b =
      if 0 ≤ a ∧ 0 < b then a.fdiv b
      else if a < 0 ∧ 0 < b then -((-a).fdiv b)
      else if 0 ≤ a then -(a.fdiv (-b))
      else (-a).fdiv (-b) := by
  split_ifs with hpp hnp hpn
  · rw [Int.fdiv_eq_tdiv_of_nonneg hpp.1 hpp.2.le]
  · rw [Int.fdiv_eq_tdiv_of_nonneg (by omega) hnp.2.le, Int.neg_tdiv, neg_neg]
  · rw [Int.fdiv_eq_tdiv_of_nonneg hpn (by omega), Int.tdiv_neg, neg_neg]
  · rw [Int.fdiv_eq_tdiv_of_nonneg (by omega) (by omega), Int.neg_tdiv_neg]

/-- The remainder of the truncating quotient is the remainder of the magnitudes with the dividend's sign. -/
theorem tmod_eq_signTable (a b : Int) :
    a.tmod b =
      if 0 ≤ a ∧ 0 < b then a - b * a.fdiv b
      else if a < 0 ∧ 0 < b then -((-a).fmod b)
      else if 0 ≤ a then a.fmod (-b)
      else -((-a).fmod (-b)) := by
  split_ifs with hpp hnp hpn
  · rw [Int.fdiv_eq_tdiv_of_nonneg hpp.1 hpp.2.le, Int.tmod_def]
  · rw [Int.fmod_eq_tmod_of_nonneg (by omega) hnp.2.le, Int.neg_tmod, neg_neg]
  · rw [Int.fmod_eq_tmod_of_nonneg hpn (by omega), Int.tmod_neg]
  · rw [Int.fmod_eq_tmod_of_nonneg (by omega) (by omega), Int.tmod_neg, Int.neg_tmod, neg_neg]

/-! ## The obligations -/

/-- Settles O8: the amount is `b mod 32`; the shifts are the product, the quotient and the floor by its power of two. -/
theorem shiftsUseLowFiveBits : Obligations.ShiftsUseLowFiveBits :=
  ⟨spells_rWord (fun _ _ _ => ⟨rfl, rfl⟩) (by decide), sll_runsAsAlu.computesR aluSll_eq,
    spells_rWord (fun _ _ _ => ⟨rfl, rfl⟩) (by decide), srl_runsAsAlu.computesR aluSrl_eq,
    spells_rWord (fun _ _ _ => ⟨rfl, rfl⟩) (by decide), sra_runsAsAlu.computesR aluSra_eq⟩

/-- Settles O12: the truncating quotient by the sign table. -/
theorem divideTruncatesAndDefaults : Obligations.DivideTruncatesAndDefaults := by
  refine ⟨spells_rWord (fun _ _ _ => ⟨rfl, rfl⟩) (by decide), rfl,
    div_runsAsDivide.computesDivide fun p a b => ?_⟩
  rw [aluDiv, tdiv_eq_signTable]
  simp only [isDivOverflow_iff, apply_ite (BitVec.ofInt 32)]

/-- Settles O13: the remainder of the truncating quotient by the sign table. -/
theorem remainderHasDividendSign : Obligations.RemainderHasDividendSign := by
  refine ⟨spells_rWord (fun _ _ _ => ⟨rfl, rfl⟩) (by decide), rfl,
    rem_runsAsDivide.computesDivide fun p a b => ?_⟩
  rw [aluRem, ← Int.tmod_def, tmod_eq_signTable]
  simp only [isDivOverflow_iff, apply_ite (BitVec.ofInt 32)]

/-- Settles O7: the vector sum and difference are those of the unsigned readings modulo 2^32. -/
theorem addAndSubWrap : Obligations.AddAndSubWrap :=
  ⟨spells_rWord (fun _ _ _ => ⟨rfl, rfl⟩) (by decide), add_runsAsAlu.computesR aluAdd_eq,
    spells_rWord (fun _ _ _ => ⟨rfl, rfl⟩) (by decide), sub_runsAsAlu.computesR aluSub_eq⟩

/-- Settles O9: slt's comparison is that of the signed readings. -/
theorem setLessThanIsSigned : Obligations.SetLessThanIsSigned :=
  ⟨spells_rWord (fun _ _ _ => ⟨rfl, rfl⟩) (by decide), slt_runsAsAlu.computesR aluSlt_eq⟩

/-- Settles O10: each bit of the result is the operation on the operands' bits of that index. -/
theorem logicIsBitwise : Obligations.LogicIsBitwise :=
  ⟨spells_rWord (fun _ _ _ => ⟨rfl, rfl⟩) (by decide), xor_runsAsAlu.computesR aluXor_eq,
    spells_rWord (fun _ _ _ => ⟨rfl, rfl⟩) (by decide), or_runsAsAlu.computesR aluOr_eq,
    spells_rWord (fun _ _ _ => ⟨rfl, rfl⟩) (by decide), and_runsAsAlu.computesR aluAnd_eq⟩

/-- Settles O11: the low half of the product is the same for both readings. -/
theorem multiplyKeepsLowHalf : Obligations.MultiplyKeepsLowHalf :=
  ⟨spells_rWord (fun _ _ _ => ⟨rfl, rfl⟩) (by decide), mul_runsAsAlu.computesR aluMul_eq_unsigned,
    mul_runsAsAlu.computesR aluMul_eq_signed⟩

end Sys2Proof.Machine
end

section
/-! PROOFS. The I-format rows and the register-immediate instructions run alone (R93, R140 to R143). -/

namespace Sys2Proof

open Sys2Proof.Claims

/-- The I-format row with this opcode and function code is spelled by them; the immediate's range holds of every
word, so the operands are free (R93). -/
theorem spells_iWord {c : Reg → Reg → Word → Instr} {f3 : BitVec 3} {op : BitVec 7} {mtch : Word}
    (hwf : ∀ rd rs1 imm, fitsSigned 12 imm → (c rd rs1 imm).WellFormed)
    (henc : ∀ rd rs1 imm, encode (c rd rs1 imm) = encI imm rs1 f3 rd op)
    (hmtch : encR 0 0 0 f3 0 op = mtch) : Spells 0x0000707F#32 mtch (iWord c) := by
  intro w
  have hmask : encR 0 0 0 (BitVec.allOnes 3) 0 (BitVec.allOnes 7) = 0x0000707F#32 := by decide
  have hwfw : (iWord c w).WellFormed := hwf _ _ _ (fitsSigned_immI w)
  have hencw : encode (iWord c w) = encI (immI w) (rs1Field w) f3 (rdField w) op := henc _ _ _
  calc decode w = .ok (iWord c w)
    _ ↔ encI (immI w) (rs1Field w) f3 (rdField w) op = w := hencw ▸ decode_eq_ok_iff hwfw w
    _ ↔ funct3Field w = f3 ∧ opcodeField w = op := by
      refine ⟨fun h => ?_, fun ⟨h3, hop⟩ => encI_of_fields h3 hop⟩
      rw [← h]
      simp
    _ ↔ w &&& 0x0000707F#32 = mtch := by
      rw [← hmask, ← hmtch, and_encR_eq_iff]
      simp only [BitVec.and_allOnes, BitVec.ofNat_eq_ofNat, BitVec.and_zero, true_and]

end Sys2Proof

namespace Sys2Proof.Machine

open Sys2Proof.Claims

/-- The constructor c runs alone as `Z <- f(A, B)` with the immediate in B, and nothing is logged (R140). -/
def RunsAsAluImm (c : Reg → Reg → Word → Instr) (f : Word → Word → Word) : Prop :=
  ∀ rd rs1 imm s, exec (c rd rs1 imm) s =
    .next ((s.withOperands (s.readReg rs1) imm).retireResult
      (newRec (c rd rs1 imm) s.pc (s.seqCtr + 1)) rd (f (s.readReg rs1) imm))

theorem addi_runsAsAluImm : RunsAsAluImm .addi aluAdd := fun _ _ _ _ => rfl
theorem andi_runsAsAluImm : RunsAsAluImm .andi aluAnd := fun _ _ _ _ => rfl
theorem ori_runsAsAluImm : RunsAsAluImm .ori aluOr := fun _ _ _ _ => rfl

theorem RunsAsAluImm.computesI {c : Reg → Reg → Word → Instr} {f g : Word → Word → Word} (h : RunsAsAluImm c f)
    (hfg : ∀ a m, f a m = g a m) : ComputesI c g := by
  intro rd rs1 imm s
  refine ⟨_, h rd rs1 imm s, ?_, ?_⟩
  · rw [← hfg]
    exact (holdsOperands_withOperands s _ _).writesResult _ rd _
  · simp [ErrorsKept]

/-- Settles O14: the register-register functions on the immediate the decoder has already sign-extended. -/
theorem immediateArithmetic : Obligations.ImmediateArithmetic :=
  ⟨spells_iWord (fun _ _ _ => decide_eq_true) (fun _ _ _ => rfl) (by decide), addi_runsAsAluImm.computesI aluAdd_eq,
    spells_iWord (fun _ _ _ => decide_eq_true) (fun _ _ _ => rfl) (by decide), andi_runsAsAluImm.computesI aluAnd_eq,
    spells_iWord (fun _ _ _ => decide_eq_true) (fun _ _ _ => rfl) (by decide), ori_runsAsAluImm.computesI aluOr_eq⟩

end Sys2Proof.Machine
end

section
/-! PROOFS. The S-format rows (R94), and which bytes the byte spaces hold after an access in range (R64 to R67,
R70). -/

namespace Sys2Proof

open Sys2Proof.Claims

/-- A row whose format checks a funct3 and no funct7 is spelled by its two codes, when the word of the operands read
off w is w exactly for the words with these codes (R102). -/
theorem spells_of_fields {build : Word → Instr} {f3 : BitVec 3} {op : BitVec 7} {mtch : Word}
    (hwf : ∀ w, (build w).WellFormed)
    (hfields : ∀ w, encode (build w) = w ↔ funct3Field w = f3 ∧ opcodeField w = op)
    (hmtch : encR 0 0 0 f3 0 op = mtch) : Spells 0x0000707F#32 mtch build := by
  intro w
  have hmask : encR 0 0 0 (BitVec.allOnes 3) 0 (BitVec.allOnes 7) = 0x0000707F#32 := by decide
  rw [decode_eq_ok_iff (hwf w), hfields, ← hmask, ← hmtch, and_encR_eq_iff]
  simp only [BitVec.and_allOnes, BitVec.ofNat_eq_ofNat, BitVec.and_zero, true_and]

/-- The S-format row with this opcode and function code is spelled by them; the operands are free (R94). -/
theorem spells_sWord {c : Reg → Reg → Word → Instr} {f3 : BitVec 3} {op : BitVec 7} {mtch : Word}
    (hwf : ∀ rs1 rs2 imm, fitsSigned 12 imm → (c rs1 rs2 imm).WellFormed)
    (henc : ∀ rs1 rs2 imm, encode (c rs1 rs2 imm) = encS imm rs2 rs1 f3 op)
    (hmtch : encR 0 0 0 f3 0 op = mtch) : Spells 0x0000707F#32 mtch (sWord c) := by
  refine spells_of_fields (fun w => hwf _ _ _ (fitsSigned_immS w)) (fun w => ?_) hmtch
  have hencw : encode (sWord c w) = encS (immS w) (rs2Field w) (rs1Field w) f3 op := henc _ _ _
  rw [hencw]
  refine ⟨fun h => ?_, fun ⟨h3, hop⟩ => encS_of_fields h3 hop⟩
  rw [← h]
  simp

/-- A value in the signed n-bit range is the sign extension of its low n bits, and only such a value is (R10). -/
theorem signExtend_low_eq_iff {n : Nat} (hpos : 0 < n) (hn : n ≤ 32) (v : Word) :
    (v.extractLsb' 0 n).signExtend 32 = v ↔ fitsSigned n v := by
  refine ⟨fun h => h ▸ fitsSigned_signExtend hn _, fun ⟨hlo, hhi⟩ => ?_⟩
  have hpow : 2 ^ n = 2 * 2 ^ (n - 1) := by rw [← Nat.pow_succ', Nat.succ_eq_add_one, Nat.sub_add_cancel hpos]
  apply BitVec.eq_of_toInt_eq
  calc ((v.extractLsb' 0 n).signExtend 32).toInt
    _ = (v.toNat : Int).bmod (2 ^ n) := by
      rw [BitVec.toInt_signExtend_of_le hn, ← BitVec.setWidth_eq_extractLsb' hn, BitVec.toInt_setWidth]
    _ = v.toInt.bmod (2 ^ n) := by
      rw [BitVec.toInt_eq_toNat_bmod, Int.bmod_bmod_of_dvd (Nat.pow_dvd_pow 2 hn)]
    _ = v.toInt := Int.bmod_eq_of_le_mul_two (by rw [hpow]; push_cast; omega) (by rw [hpow]; push_cast; omega)

end Sys2Proof

namespace Sys2Proof.Machine

open Sys2Proof.Claims

/-- An access that lies in a window passes the range check there (R64, R65). -/
theorem accessRegion_of_inWindow {p : Params} {g : Region} {a : Word} {n : Nat} (hn : 0 < n)
    (h : InWindow p g a n) : Params.accessRegion p a n = some g := by
  cases g with
  | data =>
    obtain ⟨hlo, hhi⟩ := h
    have hdata : p.dataLo.toNat ≤ a.toNat ∧ a.toNat ≤ p.dataHi.toNat := by omega
    simp [Params.accessRegion, Params.region, Params.lastAddr, hdata, hhi]
  | stack =>
    obtain ⟨hdata, hlo, hhi⟩ := h
    have hstack : p.stackLo.toNat ≤ a.toNat ∧ a.toNat ≤ p.stackHi.toNat := by omega
    simp [Params.accessRegion, Params.region, Params.lastAddr, hdata, hstack, hhi]

/-! ## Little-endian values -/

/-- The first byte of a little-endian value is the value's low eight bits (R70). -/
theorem ofNat_lowByte (b : Byte) (x : Nat) : BitVec.ofNat 8 (b.toNat + 256 * x) = b := by
  apply BitVec.eq_of_toNat_eq
  rw [BitVec.toNat_ofNat]
  omega

/-- The rest of a little-endian value stands above its first byte (R70). -/
theorem ofNat_consByte (k : Nat) (b : Byte) (x : Nat) :
    BitVec.ofNat (k + 8) (b.toNat + 256 * x) = BitVec.ofNat k x ++ b := by
  apply BitVec.eq_of_toNat_eq
  have hlow : (b.toNat + 256 * x) % 2 ^ 8 = b.toNat := by omega
  have hhigh : (b.toNat + 256 * x) / 2 ^ 8 = x := by omega
  rw [BitVec.toNat_append, BitVec.toNat_ofNat, BitVec.toNat_ofNat, ← Nat.shiftLeft_add_eq_or_of_lt b.isLt,
    Nat.shiftLeft_eq, Nat.pow_add, Nat.mul_comm (2 ^ k), Nat.mod_mul, hlow, hhigh]
  omega

/-- The word of a little-endian value is its first four bytes, whatever follows them (R66, R154). -/
theorem ofNat_leValue_word (b0 b1 b2 b3 : Byte) (bs : List Byte) :
    BitVec.ofNat 32 (leValue (b0 :: b1 :: b2 :: b3 :: bs)) = (b3 ++ b2 ++ b1 ++ b0 : BitVec 32) := by
  simp only [leValue]
  rw [ofNat_consByte 24, ofNat_consByte 16, ofNat_consByte 8, ofNat_lowByte]

/-! ## The bytes of a value -/

/-- After n bytes of v are written from a upwards, each of them reads at its address, and every other byte of both
spaces as before (R63, R67). -/
theorem State.readByte_writeBytes (s : State) (g : Region) (a n : Nat) {w : Nat} (v : BitVec w)
    (hwf : Memory.wf (s.space g) = true) (q : Region) (x : Nat) :
    (s.setSpace g (Memory.writeBytes (s.space g) a (leBytes n v))).readByte q x =
      if q = g ∧ a ≤ x ∧ x < a + n then v.extractLsb' (8 * (x - a)) 8 else s.readByte q x := by
  by_cases hg : q = g
  · subst hg
    rw [State.readByte, State.setSpace_space_same]
    by_cases hx : a ≤ x ∧ x < a + n
    · obtain ⟨i, rfl⟩ := Nat.exists_eq_add_of_le hx.1
      have hi : i < (leBytes n v).length := by rw [leBytes_length]; omega
      rw [if_pos ⟨rfl, hx⟩, Memory.read_writeBytes_inside _ a i _ hwf hi, leBytes_get, Nat.add_sub_cancel_left]
    · rw [if_neg (fun hin => hx hin.2)]
      exact Memory.read_writeBytes_outside _ a x _ hwf (by rw [leBytes_length]; omega)
  · rw [if_neg (fun hin => hg hin.1), State.readByte, State.setSpace_space_ne s g q _ hg]
    rfl

theorem regByte_eq_extract (v : Word) (k : Nat) : regByte v k = v.extractLsb' (8 * k) 8 := by
  apply BitVec.eq_of_toNat_eq
  simp [regByte, Nat.shiftRight_eq_div_pow]

/-- Byte k below the len bits above it is the len + 8 bits from byte k upwards. -/
theorem extract_append_regByte (v : Word) (k len : Nat) :
    (v.extractLsb' (8 * (k + 1)) len ++ regByte v k : BitVec (len + 8)) = v.extractLsb' (8 * k) (len + 8) := by
  rw [regByte_eq_extract, BitVec.extractLsb'_append_extractLsb'_eq_extractLsb' (by omega)]

theorem regBytes_half (v : Word) : (regByte v 1 ++ regByte v 0 : BitVec 16) = v.extractLsb' 0 16 := by
  rw [regByte_eq_extract v 1]
  exact extract_append_regByte v 0 8

theorem regBytes_word (v : Word) :
    (regByte v 3 ++ regByte v 2 ++ regByte v 1 ++ regByte v 0 : BitVec 32) = v := by
  rw [regByte_eq_extract v 3, extract_append_regByte v 2 8, extract_append_regByte v 1 16,
    extract_append_regByte v 0 24]
  exact BitVec.extractLsb'_eq_self

/-- A byte of the low n bytes of a register is that byte of the register. -/
theorem extract_low_eq_regByte {n k : Nat} (hk : k < n) (v : Word) :
    (v.extractLsb' 0 (8 * n)).extractLsb' (8 * k) 8 = regByte v k := by
  rw [BitVec.extractLsb'_extractLsb'_of_le (by omega), regByte_eq_extract]

/-- The 64-bit sign extension is the register under 32 copies of its sign (R72, R159). -/
theorem valDouble_eq_append (v : Word) :
    valDouble v = ((if v.toInt < 0 then BitVec.allOnes 32 else 0#32) ++ v : BitVec 64) := by
  rw [valDouble, BitVec.signExtend_eq_append_of_le (by decide), BitVec.msb_eq_toInt]
  simp only [decide_eq_true_eq]
  rfl

/-- The four low bytes of the sign extension are the register's, the four high ones copies of the sign (R159). -/
theorem valDouble_byte {k : Nat} (hk : k < 8) (v : Word) :
    (valDouble v).extractLsb' (8 * k) 8 = regByte64 v k := by
  rw [valDouble_eq_append]
  by_cases h4 : k < 4
  · rw [regByte64, if_pos h4, regByte_eq_extract]
    exact BitVec.extractLsb'_append_eq_of_add_le (by omega)
  · rw [regByte64, if_neg h4]
    refine (BitVec.extractLsb'_append_eq_of_le (by omega)).trans ?_
    split
    · have hones : 0xFF#8 = BitVec.allOnes 8 := by decide
      rw [hones]
      ext i hi
      have hbit : 8 * k - 32 + i < 32 := by omega
      simp only [BitVec.getElem_extractLsb', BitVec.getLsbD_allOnes, hbit, BitVec.getElem_allOnes, decide_true]
    · exact BitVec.extractLsb'_zero

end Sys2Proof.Machine
end

section
/-! PROOFS. A load or store run alone whose access lies in a window, and a store and then the load of its width at
the same address (R64 to R67, R150 to R160). -/

namespace Sys2Proof.Machine

open Sys2Proof.Claims

/-! ## Loads -/

/-- In range the memory stage puts the extension of the n bytes at the address in Y, and the writeback takes it
(R66, R150). -/
theorem RunsAsLoad.loadsValue {c : Reg → Reg → Word → Instr} {n : Nat} {ext : BitVec (8 * n) → Word}
    {value : State → Region → Nat → Word} (h : RunsAsLoad c n ext) (hn : 0 < n)
    (hvalue : ∀ s g a,
      ext (BitVec.ofNat (8 * n) (leValue (Memory.readBytes (s.space g) a n))) = value s g a) :
    LoadsValue c n value := by
  intro rd rs1 imm s g hwin
  have hmem : memoryLoad n ext (s.addressedLoad rs1 imm) =
      (s.addressedLoad rs1 imm).setY (value s g (s.readReg rs1 + imm).toNat) :=
    (memoryLoad_inRange n ext _ g (accessRegion_of_inWindow hn hwin)).trans
      (congrArg _ (hvalue s g _))
  have hexec := h rd rs1 imm s
  rw [hmem] at hexec
  refine ⟨_, hexec, fun r => State.readReg_writeReg _ rd r _, ?_, ?_, ?_, ?_, ?_, ?_⟩
  · simp
  · simp [Buffers]
  · simp [MemoryKept]
  · simp [ControlKept]
  · simp [ErrorsKept]
  · simp [Retired, newRec]

theorem extByte_readBytes (s : State) (g : Region) (a : Nat) :
    extByte (BitVec.ofNat 8 (leValue (Memory.readBytes (s.space g) a 1))) = (s.readByte g a).signExtend 32 :=
  congrArg _ (ofNat_lowByte _ 0)

theorem extHalf_readBytes (s : State) (g : Region) (a : Nat) :
    extHalf (BitVec.ofNat 16 (leValue (Memory.readBytes (s.space g) a 2))) =
      (s.readByte g (a + 1) ++ s.readByte g a : BitVec 16).signExtend 32 := by
  have hbytes : BitVec.ofNat 16 (leValue (Memory.readBytes (s.space g) a 2)) =
      (s.readByte g (a + 1) ++ s.readByte g a : BitVec 16) := by
    rw [Memory.readBytes, leValue, ofNat_consByte 8, Memory.readBytes, leValue, ofNat_lowByte]
    rfl
  exact congrArg _ hbytes

theorem extWord_readBytes (s : State) (g : Region) (a : Nat) :
    extWord (BitVec.ofNat 32 (leValue (Memory.readBytes (s.space g) a 4))) = wordAt s g a :=
  ofNat_leValue_word _ _ _ _ _

theorem extDouble_readBytes (s : State) (g : Region) (a : Nat) :
    extDouble (BitVec.ofNat 64 (leValue (Memory.readBytes (s.space g) a 8))) = wordAt s g a := by
  rw [extDouble, ← BitVec.setWidth_eq_extractLsb' (by decide), BitVec.setWidth_ofNat_of_le (by decide)]
  exact ofNat_leValue_word _ _ _ _ _

theorem lb_loadsValue : LoadsValue .lb 1 fun s g a => (s.readByte g a).signExtend 32 :=
  lb_runsAsLoad.loadsValue (by decide) extByte_readBytes
theorem lh_loadsValue : LoadsValue .lh 2 fun s g a =>
    (s.readByte g (a + 1) ++ s.readByte g a : BitVec 16).signExtend 32 :=
  lh_runsAsLoad.loadsValue (by decide) extHalf_readBytes
theorem lw_loadsValue : LoadsValue .lw 4 wordAt := lw_runsAsLoad.loadsValue (by decide) extWord_readBytes
theorem ld_loadsValue : LoadsValue .ld 8 wordAt := ld_runsAsLoad.loadsValue (by decide) extDouble_readBytes

/-- Settles O15: each width is the shared load procedure, in range. -/
theorem loadsReadLittleEndianBytes : Obligations.LoadsReadLittleEndianBytes :=
  ⟨spells_iWord (fun _ _ _ => decide_eq_true) (fun _ _ _ => rfl) (by decide), lb_loadsValue,
    spells_iWord (fun _ _ _ => decide_eq_true) (fun _ _ _ => rfl) (by decide), lh_loadsValue,
    spells_iWord (fun _ _ _ => decide_eq_true) (fun _ _ _ => rfl) (by decide), lw_loadsValue,
    spells_iWord (fun _ _ _ => decide_eq_true) (fun _ _ _ => rfl) (by decide), ld_loadsValue⟩

/-! ## Stores -/

/-- In range the memory stage writes the value's n bytes and puts the address in Y; a store has no writeback
(R67, R155). -/
theorem RunsAsStore.storesBytes {c : Reg → Reg → Word → Instr} {n : Nat} {val : Word → BitVec (8 * n)}
    {byte : Word → Nat → Byte} (h : RunsAsStore c n val) (hn : 0 < n)
    (hbyte : ∀ v k, k < n → (val v).extractLsb' (8 * k) 8 = byte v k) : StoresBytes c n byte := by
  intro rs1 rs2 imm s g hwf hwin
  have hspace : (s.addressedStore rs1 rs2 imm).space g = s.space g := by cases g <;> rfl
  have hmem := memoryStore_inRange n val (s.addressedStore rs1 rs2 imm) g (accessRegion_of_inWindow hn hwin)
  have hexec := h rs1 rs2 imm s
  rw [hmem] at hexec
  refine ⟨_, hexec, ⟨?_, ?_, ?_, ?_, ?_, ?_⟩, fun r x => ?_, ?_⟩
  · simp [RegsKept]
  · simp
  · simp [Buffers]
  · simp
  · simp [ControlKept]
  · simp [Retired, newRec]
  · rw [State.emit_readByte, State.beginStep_readByte, State.setY_readByte,
      State.readByte_writeBytes _ g _ n _ (hspace.symm ▸ hwf)]
    simp only [State.setM_bufM, State.setM_bufZ, State.setZ_bufZ, State.setM_readByte, State.setZ_readByte,
      State.setAB_readByte, State.countDecode_readByte, State.setPc_readByte]
    refine ite_congr rfl (fun hin => hbyte _ _ ?_) fun _ => rfl
    omega
  · simp [ErrorsKept]

theorem sb_storesBytes : StoresBytes .sb 1 regByte :=
  sb_runsAsStore.storesBytes (by decide) fun v _ hk => extract_low_eq_regByte hk v
theorem sh_storesBytes : StoresBytes .sh 2 regByte :=
  sh_runsAsStore.storesBytes (by decide) fun v _ hk => extract_low_eq_regByte hk v
theorem sw_storesBytes : StoresBytes .sw 4 regByte :=
  sw_runsAsStore.storesBytes (by decide) fun v k _ => (regByte_eq_extract v k).symm
theorem sd_storesBytes : StoresBytes .sd 8 regByte64 :=
  sd_runsAsStore.storesBytes (by decide) fun v _ hk => valDouble_byte hk v

/-- Settles O17: each width is the shared store procedure, in range. -/
theorem storesWriteLittleEndianBytes : Obligations.StoresWriteLittleEndianBytes :=
  ⟨spells_sWord (fun _ _ _ => decide_eq_true) (fun _ _ _ => rfl) (by decide), sb_storesBytes,
    spells_sWord (fun _ _ _ => decide_eq_true) (fun _ _ _ => rfl) (by decide), sh_storesBytes,
    spells_sWord (fun _ _ _ => decide_eq_true) (fun _ _ _ => rfl) (by decide), sw_storesBytes,
    spells_sWord (fun _ _ _ => decide_eq_true) (fun _ _ _ => rfl) (by decide), sd_storesBytes⟩

/-! ## A store and then the load of the same width -/

theorem params_of_controlKept {s t : State} (h : ControlKept s t) : t.params = s.params := by
  obtain ⟨-, -, -, -, -, -, -, -, -, -, -, -, -, -, hparams⟩ := h
  exact hparams

/-- A load that reads `back v` wherever the n bytes of v stand gives `back` of what a store of these bytes stored: the
store keeps the base register and the windows, so the load takes the same bytes (R160). -/
theorem storeThenLoad_readReg {st ld : Reg → Reg → Word → Instr} {n : Nat} {byte : Word → Nat → Byte}
    {value : State → Region → Nat → Word} {back : Word → Word} (hst : StoresBytes st n byte)
    (hld : LoadsValue ld n value)
    (hback : ∀ t g a v, (∀ k < n, t.readByte g (a + k) = byte v k) → value t g a = back v)
    {s : State} {rd rs1 : Reg} (rs2 : Reg) {imm : Word} {g : Region} (hwf : Memory.wf (s.space g) = true)
    (hrd : rd ≠ 0#5) (hwin : InWindow s.params g (s.readReg rs1 + imm) n) :
    ∃ t u, exec (st rs1 rs2 imm) s = .next t ∧ exec (ld rd rs1 imm) t = .next u ∧
      u.readReg rd = back (s.readReg rs2) := by
  obtain ⟨t, hexec, ⟨hregs, -, -, -, hcontrol, -⟩, hbytes, -⟩ := hst rs1 rs2 imm s g hwf hwin
  rw [← hregs rs1, ← params_of_controlKept hcontrol] at hwin
  obtain ⟨u, hexec', hwrite, -⟩ := hld rd rs1 imm t g hwin
  refine ⟨t, u, hexec, hexec', ?_⟩
  rw [hwrite rd, if_pos ⟨rfl, hrd⟩, hregs rs1]
  refine hback t g _ _ fun k hk => ?_
  rw [hbytes, if_pos ⟨rfl, by omega, by omega⟩, Nat.add_sub_cancel_left]

/-! What each load reads where the bytes of a register stand. -/

section

variable {t : State} {g : Region} {a : Nat} {v : Word}

theorem readByte_of_bytes (h : ∀ k < 1, t.readByte g (a + k) = regByte v k) :
    t.readByte g a = v.extractLsb' 0 8 :=
  (h 0 (by decide)).trans (regByte_eq_extract v 0)

theorem halfAt_of_bytes (h : ∀ k < 2, t.readByte g (a + k) = regByte v k) :
    (t.readByte g (a + 1) ++ t.readByte g a : BitVec 16) = v.extractLsb' 0 16 := by
  have h0 : t.readByte g a = regByte v 0 := h 0 (by decide)
  rw [h 1 (by decide), h0, regBytes_half]

theorem wordAt_of_bytes (h : ∀ k < 4, t.readByte g (a + k) = regByte v k) : wordAt t g a = v := by
  have h0 : t.readByte g a = regByte v 0 := h 0 (by decide)
  rw [wordAt, h 3 (by decide), h 2 (by decide), h 1 (by decide), h0, regBytes_word]

/-- The low word of eight stored bytes: the bytes of the sign are above it (R160). -/
theorem wordAt_of_bytes64 (h : ∀ k < 8, t.readByte g (a + k) = regByte64 v k) : wordAt t g a = v :=
  wordAt_of_bytes fun k hk => (h k (by omega)).trans (if_pos hk)

end

/-- Settles O19: the narrow pairs give the sign extension of the low bits, which is the register exactly in range; the
others give the register. -/
theorem storeThenLoadRoundTrip : Obligations.StoreThenLoadRoundTrip := by
  intro s rd rs1 rs2 imm g hwf hrd
  refine ⟨fun hwin => ?_, fun hwin => ?_, fun hwin => ?_, fun hwin => ?_⟩
  · obtain ⟨t, u, hst, hld, hback⟩ := storeThenLoad_readReg sb_storesBytes lb_loadsValue
      (fun _ _ _ _ h => congrArg (BitVec.signExtend 32) (readByte_of_bytes h)) rs2 hwf hrd hwin
    exact ⟨t, u, hst, hld, hback, hback ▸ signExtend_low_eq_iff (by decide) (by decide) _⟩
  · obtain ⟨t, u, hst, hld, hback⟩ := storeThenLoad_readReg sh_storesBytes lh_loadsValue
      (fun _ _ _ _ h => congrArg (BitVec.signExtend 32) (halfAt_of_bytes h)) rs2 hwf hrd hwin
    exact ⟨t, u, hst, hld, hback, hback ▸ signExtend_low_eq_iff (by decide) (by decide) _⟩
  · exact storeThenLoad_readReg sw_storesBytes lw_loadsValue (fun _ _ _ _ => wordAt_of_bytes) rs2 hwf hrd hwin
  · exact storeThenLoad_readReg sd_storesBytes ld_loadsValue (fun _ _ _ _ => wordAt_of_bytes64) rs2 hwf hrd hwin

end Sys2Proof.Machine
end

section
/-! PROOFS. The B-format rows and the conditional branches run alone (R95, R170 to R174, R224). -/

namespace Sys2Proof

open Sys2Proof.Claims

/-- The B-format row with this opcode and function code is spelled by them; the offset read off a word is even and in
range, so the operands are free (R95). -/
theorem spells_bWord {c : Reg → Reg → Word → Instr} {f3 : BitVec 3} {op : BitVec 7} {mtch : Word}
    (hwf : ∀ rs1 rs2 imm, fitsSigned 13 imm ∧ isEven imm → (c rs1 rs2 imm).WellFormed)
    (henc : ∀ rs1 rs2 imm, encode (c rs1 rs2 imm) = encB imm rs2 rs1 f3 op)
    (hmtch : encR 0 0 0 f3 0 op = mtch) : Spells 0x0000707F#32 mtch (bWord c) := by
  refine spells_of_fields (fun w => hwf _ _ _ ⟨fitsSigned_immB w, isEven_immB w⟩) (fun w => ?_) hmtch
  have hencw : encode (bWord c w) = encB (immB w) (rs2Field w) (rs1Field w) f3 op := henc _ _ _
  rw [hencw]
  refine ⟨fun h => ?_, fun ⟨h3, hop⟩ => encB_of_fields h3 hop⟩
  rw [← h]
  simp

end Sys2Proof

namespace Sys2Proof.Machine

open Sys2Proof.Claims

/-- The execute phase of a branch with a known outcome leaves the target in pc when it is taken, and pc as it is
otherwise (R224). -/
theorem branchAtExecute_pc {r : Rec} {tk : Bool} (hbranch : r.instr.isBranch = true) (htaken : r.taken = some tk)
    (s : State) : (branchAtExecute r s).pc = if tk then r.target else s.pc := by
  cases tk <;> simp [branchAtExecute, hbranch, htaken]

/-- The record of a branch run alone once its outcome is known (R170, R223). -/
abbrev State.resolvedRec (s : State) (i : Instr) (tk : Bool) : Rec :=
  { newRec i s.pc (s.seqCtr + 1) with taken := some tk }

/-- From the operands a and b on: the target in Z, the execute phase's pc rule, Z to Y, the writeback's event
(R170, R224, R226). -/
abbrev State.retireBranch (s : State) (r : Rec) (a b : Word) : State :=
  (memoryPass (branchAtExecute r ((s.withOperands a b).setZ r.target))).beginStep.emit (.wb r)

theorem State.retireBranch_pc (s : State) {i : Instr} (hbranch : i.isBranch = true) (tk : Bool) (a b : Word) :
    (s.retireBranch (s.resolvedRec i tk) a b).pc = if tk then s.pc + i.imm else s.pc + 4#32 :=
  branchAtExecute_pc hbranch rfl _

/-- The constructor c runs alone as the branch on `cond(A, B)` (R170). -/
def RunsAsBranch (c : Reg → Reg → Word → Instr) (cond : Word → Word → Bool) : Prop :=
  ∀ rs1 rs2 imm s, exec (c rs1 rs2 imm) s =
    .next (s.retireBranch (s.resolvedRec (c rs1 rs2 imm) (cond (s.readReg rs1) (s.readReg rs2)))
      (s.readReg rs1) (s.readReg rs2))

theorem beq_runsAsBranch : RunsAsBranch .beq condEq := fun _ _ _ _ => rfl
theorem bne_runsAsBranch : RunsAsBranch .bne condNe := fun _ _ _ _ => rfl
theorem blt_runsAsBranch : RunsAsBranch .blt condLt := fun _ _ _ _ => rfl
theorem bge_runsAsBranch : RunsAsBranch .bge condGe := fun _ _ _ _ => rfl

/-- A branch run alone writes pc by its outcome and the target to Z and Y; it has no writeback (R170). -/
theorem RunsAsBranch.branchesOn {c : Reg → Reg → Word → Instr} {cond : Word → Word → Bool}
    {holds : Word → Word → Prop} (h : RunsAsBranch c cond)
    (hbranch : ∀ rs1 rs2 imm, (c rs1 rs2 imm).isBranch = true) (himm : ∀ rs1 rs2 imm, (c rs1 rs2 imm).imm = imm)
    (hcond : ∀ a b, cond a b = true ↔ holds a b) : BranchesOn c holds := by
  intro rs1 rs2 imm s
  have hpc := s.retireBranch_pc (hbranch rs1 rs2 imm)
  refine ⟨_, _, h rs1 rs2 imm s, hcond _ _, fun hyes => ?_, fun hno => ?_, ?_, ?_, ?_, ?_, ?_, ?_⟩
  · rw [hpc, if_pos ((hcond _ _).2 hyes), himm]
  · rw [hpc, if_neg (mt (hcond _ _).1 hno)]
  · simp [RegsKept, memoryPass]
  · simp [MemoryKept, memoryPass]
  · simp [ControlKept, memoryPass]
  · simp [ErrorsKept, memoryPass]
  · simp [Buffers, memoryPass, Rec.target, newRec, himm]
  · simp [Retired, memoryPass, newRec]

/-- Settles O20: the four branches differ in their function codes and their conditions only. -/
theorem branchesFollowTheirConditions : Obligations.BranchesFollowTheirConditions :=
  ⟨spells_bWord (fun _ _ _ => decide_eq_true) (fun _ _ _ => rfl) (by decide),
    beq_runsAsBranch.branchesOn (fun _ _ _ => rfl) (fun _ _ _ => rfl) fun _ _ => beq_iff_eq,
    spells_bWord (fun _ _ _ => decide_eq_true) (fun _ _ _ => rfl) (by decide),
    bne_runsAsBranch.branchesOn (fun _ _ _ => rfl) (fun _ _ _ => rfl) fun _ _ => bne_iff_ne,
    spells_bWord (fun _ _ _ => decide_eq_true) (fun _ _ _ => rfl) (by decide),
    blt_runsAsBranch.branchesOn (fun _ _ _ => rfl) (fun _ _ _ => rfl) fun _ _ => decide_eq_true_iff,
    spells_bWord (fun _ _ _ => decide_eq_true) (fun _ _ _ => rfl) (by decide),
    bge_runsAsBranch.branchesOn (fun _ _ _ => rfl) (fun _ _ _ => rfl) fun _ _ => decide_eq_true_iff⟩

end Sys2Proof.Machine
end

section
/-! PROOFS. The U-format and UJ-format rows (R96, R97), and the upper immediates and jumps run alone (R180 to R183,
R226). -/

namespace Sys2Proof

open Sys2Proof.Claims

/-- A row whose format checks no function code is spelled by its opcode, when the word of the operands read off w is w
exactly for the words with this opcode (R102). -/
theorem spells_of_opcode {build : Word → Instr} {op : BitVec 7} {mtch : Word} (hwf : ∀ w, (build w).WellFormed)
    (hfields : ∀ w, encode (build w) = w ↔ opcodeField w = op)
    (hmtch : encR 0 0 0 0 0 op = mtch) : Spells 0x0000007F#32 mtch build := by
  intro w
  have hmask : encR 0 0 0 0 0 (BitVec.allOnes 7) = 0x0000007F#32 := by decide
  rw [decode_eq_ok_iff (hwf w), hfields, ← hmask, ← hmtch, and_encR_eq_iff]
  simp only [BitVec.and_allOnes, BitVec.ofNat_eq_ofNat, BitVec.and_zero, true_and]

/-- The U-format row with this opcode is spelled by it; the operands are free (R96). -/
theorem spells_uWord {c : Reg → Word → Instr} {op : BitVec 7} {mtch : Word}
    (hwf : ∀ rd imm, fitsSigned 20 imm → (c rd imm).WellFormed)
    (henc : ∀ rd imm, encode (c rd imm) = encU imm rd op)
    (hmtch : encR 0 0 0 0 0 op = mtch) : Spells 0x0000007F#32 mtch (uWord c) := by
  refine spells_of_opcode (fun w => hwf _ _ (fitsSigned_immU w)) (fun w => ?_) hmtch
  have hencw : encode (uWord c w) = encU (immU w) (rdField w) op := henc _ _
  rw [hencw]
  refine ⟨fun h => ?_, encU_of_fields⟩
  rw [← h]
  simp

/-- The UJ-format row with this opcode is spelled by it; the offset read off a word is even and in range, so the
operands are free (R97). -/
theorem spells_ujWord {c : Reg → Word → Instr} {op : BitVec 7} {mtch : Word}
    (hwf : ∀ rd imm, fitsSigned 21 imm ∧ isEven imm → (c rd imm).WellFormed)
    (henc : ∀ rd imm, encode (c rd imm) = encUJ imm rd op)
    (hmtch : encR 0 0 0 0 0 op = mtch) : Spells 0x0000007F#32 mtch (ujWord c) := by
  refine spells_of_opcode (fun w => hwf _ _ ⟨fitsSigned_immUJ w, isEven_immUJ w⟩) (fun w => ?_) hmtch
  have hencw : encode (ujWord c w) = encUJ (immUJ w) (rdField w) op := henc _ _
  rw [hencw]
  refine ⟨fun h => ?_, encUJ_of_fields⟩
  rw [← h]
  simp

end Sys2Proof

namespace Sys2Proof.Machine

open Sys2Proof.Claims

/-! ## Jumps -/

/-- From the operands on: the return address through Z and Y to rd, the target in M, the writeback's event, and the
writeback phase's pc rule (R182, R183, R226). -/
abbrev State.retireJump (s : State) (r : Rec) (rd : Reg) (target : Word) : State :=
  ((s.setM target).retireResult r rd r.next).setPc target

/-- The record's return address goes to rd and the target to pc, whichever register the target was computed from. -/
theorem State.retireJump_jumpsTo (s : State) (i : Instr) (rd : Reg) (a b target : Word) :
    JumpsTo i s ((s.withOperands a b).retireJump (newRec i s.pc (s.seqCtr + 1)) rd target) rd a b target := by
  refine ⟨fun r => State.readReg_writeReg _ rd r _, rfl, ?_, ⟨rfl, fun g _ => by cases g <;> rfl⟩, ?_, ?_, ?_⟩
  · simp [Buffers, Rec.next, newRec]
  · simp [ControlKept]
  · simp [ErrorsKept]
  · simp [Retired, newRec]

theorem exec_jal (rd : Reg) (imm : Word) (s : State) :
    exec (.jal rd imm) s = .next ((s.withOperands 0#32 imm).retireJump
      (newRec (.jal rd imm) s.pc (s.seqCtr + 1)) rd (s.pc + imm)) := rfl

theorem exec_jalr (rd rs1 : Reg) (imm : Word) (s : State) :
    exec (.jalr rd rs1 imm) s = .next ((s.withOperands (s.readReg rs1) imm).retireJump
      (newRec (.jalr rd rs1 imm) s.pc (s.seqCtr + 1)) rd (s.withOperands (s.readReg rs1) imm).jalrTarget) := rfl

/-- Settles O22: jalr reads its base register into A before the writeback, so `rd = rs1` is no exception. -/
theorem jumpsLinkAndTransfer : Obligations.JumpsLinkAndTransfer :=
  ⟨spells_ujWord (fun _ _ => decide_eq_true) (fun _ _ => rfl) (by decide),
    fun rd imm s => ⟨_, exec_jal rd imm s, s.retireJump_jumpsTo _ rd _ _ _⟩,
    spells_iWord (fun _ _ _ => decide_eq_true) (fun _ _ _ => rfl) (by decide),
    fun rd rs1 imm s => ⟨_, _, exec_jalr rd rs1 imm s, State.jalrTarget_toNat _, s.retireJump_jumpsTo _ rd _ _ _⟩⟩

/-! ## Upper immediates -/

/-- The constructor c runs alone as `Z <- f(fpc, B)` with 0 in A and the immediate in B, and nothing is logged
(R180, R181). -/
def RunsAsUpper (c : Reg → Word → Instr) (f : Word → Word → Word) : Prop :=
  ∀ rd imm s, exec (c rd imm) s =
    .next ((s.withOperands 0#32 imm).retireResult (newRec (c rd imm) s.pc (s.seqCtr + 1)) rd (f s.pc imm))

theorem lui_runsAsUpper : RunsAsUpper .lui fun _ imm => imm <<< 12 := fun _ _ _ => rfl
theorem auipc_runsAsUpper : RunsAsUpper .auipc fun pc imm => pc + imm <<< 12 := fun _ _ _ => rfl

theorem RunsAsUpper.writesResult {c : Reg → Word → Instr} {f g : Word → Word → Word} (h : RunsAsUpper c f)
    (hfg : ∀ pc imm, f pc imm = g pc imm) (rd : Reg) (imm : Word) (s : State) :
    ∃ t, exec (c rd imm) s = .next t ∧ WritesResult (c rd imm) s t rd 0#32 imm (g s.pc imm) ∧ ErrorsKept s t := by
  refine ⟨_, h rd imm s, ?_, ?_⟩
  · rw [← hfg]
    exact (holdsOperands_withOperands s _ _).writesResult _ rd _
  · simp [ErrorsKept]

/-- Shifting by 12 multiplies by 4096, modulo 2^32. -/
theorem shiftLeft_twelve_eq (imm : Word) : imm <<< 12 = BitVec.ofNat 32 (imm.toNat * 4096 % 2 ^ 32) := by
  apply BitVec.eq_of_toNat_eq
  simp [Nat.shiftLeft_eq]

theorem add_shiftLeft_twelve_eq (pc imm : Word) :
    pc + imm <<< 12 = BitVec.ofNat 32 ((pc.toNat + imm.toNat * 4096) % 2 ^ 32) := by
  apply BitVec.eq_of_toNat_eq
  simp [shiftLeft_twelve_eq]

/-- Settles O21: both write the shifted immediate, auipc on top of the pc it was fetched from. -/
theorem upperImmediates : Obligations.UpperImmediates :=
  ⟨spells_uWord (fun _ _ => decide_eq_true) (fun _ _ => rfl) (by decide),
    lui_runsAsUpper.writesResult fun _ => shiftLeft_twelve_eq,
    spells_uWord (fun _ _ => decide_eq_true) (fun _ _ => rfl) (by decide),
    auipc_runsAsUpper.writesResult add_shiftLeft_twelve_eq⟩

end Sys2Proof.Machine
end

section
/-! PROOFS. The FETCH phase, the DECODE phase on a word that does not decode, and the five phases as a statement
(R221 to R226, R302). -/

namespace Sys2Proof.Machine

open Sys2Proof.Claims

/-- Settles O29: the five phases in a row, one lemma each, are the instruction run alone. -/
theorem fiveStepsRunInstruction : Obligations.FiveStepsRunInstruction := stepN_five_eq_exec

/-- Nothing is fetched exactly at the termination address and where `IMEM` maps no word (R61, R62). -/
theorem State.ifetch_eq_none_iff (s : State) (a : Word) :
    s.ifetch a = none ↔ a = s.params.termAddr ∨ IMem.lookup s.imem a.toNat = none := by
  by_cases h : a = s.params.termAddr <;> simp [State.ifetch, h]

theorem State.ifetch_of_lookup (s : State) (a w : Word) (ha : a ≠ s.params.termAddr)
    (hw : IMem.lookup s.imem a.toNat = some w) : s.ifetch a = some w := by
  simp [State.ifetch, ha, hw]

theorem step_fetch_nothing (s : State) (hs : s.halted = false) (hp : s.params.cfgPipelined = false)
    (hph : s.phase = .fetch) (hw : s.ifetch s.pc = none) :
    step s = .next (s.beginStep.emit .ifNone).finish := by
  rw [step_phased s hs hp, phaseStep_fetch s hph, phaseFetch_nothing s.beginStep hw]

theorem step_fetch_word (s : State) (w : Word) (hs : s.halted = false)
    (hp : s.params.cfgPipelined = false) (hph : s.phase = .fetch) (hw : s.ifetch s.pc = some w) :
    step s = .next ((fetchWord w s.beginStep).setPhase .decode) := by
  rw [step_phased s hs hp, phaseStep_fetch s hph, phaseFetch_word s.beginStep w hw]

/-- Settles O31: the phase looks only at whether the fetch answers a word. -/
theorem fetchPhaseFetchesOrCompletes : Obligations.FetchPhaseFetchesOrCompletes := by
  intro s hs hp hph
  constructor
  · intro h
    exact step_fetch_nothing s hs hp hph ((s.ifetch_eq_none_iff s.pc).2 h)
  · intro w ha hw
    exact step_fetch_word s w hs hp hph (s.ifetch_of_lookup s.pc w ha hw)

/-- The error of a word that does not decode (R103, R104, R302). -/
def decodeError (w : Word) : Option ErrCode :=
  match decode w with
  | .ok _ => none
  | .unknownOpcode => some .unknownOpcode
  | .unknownFunct => some .unknownFunct

/-- Every word decodes or has its error, the one of the decoder's refusal. -/
theorem decode_cases (w : Word) :
    (∃ i, decode w = .ok i ∧ decodeError w = none) ∨
    ∃ c, decodeError w = some c ∧
      (decode w = .unknownOpcode ∧ c = .unknownOpcode ∨ decode w = .unknownFunct ∧ c = .unknownFunct) := by
  unfold decodeError
  cases decode w <;> simp

/-- The DECODE phase on a bad word raises its error with F emptied, and that is all (R223). -/
theorem phaseDecode_error (s : State) (f : Fetched) (c : ErrCode) (h : s.slotF = some f)
    (hc : decodeError f.word = some c) :
    phaseDecode s = .next (s.emptyF.raiseFatal c f.word) := by
  obtain ⟨i, -, hnone⟩ | ⟨c', hc', ⟨hd, rfl⟩ | ⟨hd, rfl⟩⟩ := decode_cases f.word
  · rw [hnone] at hc; cases hc
  · rw [hc'] at hc; cases hc; exact phaseDecode_unknownOpcode s f h hd
  · rw [hc'] at hc; cases hc; exact phaseDecode_unknownFunct s f h hd

/-- From a FETCH phase whose word is bad two steps raise the error and change pc, the phase and the status only. -/
theorem stepN_two_decodeError (s : State) (w : Word) (c : ErrCode) (h : ReadyToFetch s)
    (hw : s.ifetch s.pc = some w) (hc : decodeError w = some c) :
    stepN 2 s = .next { s with
      pc := s.pc + 4#32, phase := .decode, fatal := true, fatalCode := c.num, fatalInfo := w,
      trace := [.fatal c w] } := by
  obtain ⟨hrun, hp, hph, hF, hD, hX, hW⟩ := h
  let s1 := (fetchWord w s.beginStep).setPhase .decode
  have e1 : step s = .next s1 := step_fetch_word s w hrun hp hph hw
  have e2 : step s1 = .next (s1.beginStep.emptyF.raiseFatal c w) := by
    rw [step_phased s1 hrun hp, phaseStep_decode s1 rfl]
    exact phaseDecode_error s1.beginStep _ c rfl hc
  rw [stepN_succ_of_next 1 s s1 e1, stepN_succ_of_next 0 s1 _ e2]
  exact congrArg (fun f => Host.Outcome.next { s with
    pc := s.pc + 4#32, phase := .decode, fatal := true, fatalCode := c.num, fatalInfo := w,
    trace := [.fatal c w], slotF := f }) hF.symm

/-- Settles O32: the fetch advances pc and fills F, and the bad word's DECODE phase empties F and raises the error. -/
theorem nonPipelinedDecodeErrorIsPrecise : Obligations.NonPipelinedDecodeErrorIsPrecise := by
  intro s w hready hw hbad
  obtain ⟨i, hd, -⟩ | ⟨c, hc, hcode⟩ := decode_cases w
  · exact absurd hd (hbad i)
  · refine ⟨c, fun h => ?_, fun h => ?_, stepN_two_decodeError s w c hready hw hc⟩ <;>
      simpa [h] using hcode

end Sys2Proof.Machine
end

section
/-! PROOFS. The two ways a drained pipeline completes the run (R204, R215). -/

namespace Sys2Proof.Machine

open Sys2Proof.Safety Sys2Proof.Claims

theorem subWriteback_none (s : State) (h : s.slotW = none) : subWriteback s = .go s := by
  simp [subWriteback, h]

theorem subWriteback_last (s : State) (i : Rec) (hW : s.slotW = some i) (hF : s.slotF = none)
    (hD : s.slotD = none) (hX : s.slotX = none) (hS : s.slotS = none) (hb : s.bubble = 0) :
    subWriteback s = .stop ((writeback i s).emit (.wb i)).emptyW.finish := by
  have hd : ((writeback i s).emit (.wb i)).emptyW.drained = true := by
    simp [State.drained_iff, hF, hD, hX, hS, hb]
  simp [subWriteback, hW, hd]

/-- Writeback changes the register file only. -/
theorem writeback_shape (i : Rec) (s : State) :
    writeback i s = { s with regs := (writeback i s).regs } := by
  unfold writeback
  split <;> rfl

/-- Settles O46: sub-step 1 retires W and, the pipeline being drained, ends the step. -/
theorem lastWritebackCompletes : Obligations.LastWritebackCompletes := by
  intro s i ⟨hs, hp⟩ hW hF hD hX hS hb
  refine ⟨((writeback i s.beginStep).emit (.wb i)).emptyW.finish, ?_, rfl, by simp, fun r => ?_, ?_⟩
  · rw [step_pipelined s hs hp, pipelinedStep, subWriteback_last s.beginStep i hW hF hD hX hS hb]
    rfl
  · exact writeback_readReg s.beginStep i r
  · rw [writeback_shape]
    rfl

/-- Settles O53: sub-steps 1 to 4 find nothing but the window to shift, and the fetch completes the run. -/
theorem emptyPipelineFetchingNothingCompletes : Obligations.EmptyPipelineFetchingNothingCompletes := by
  intro s ⟨hs, hp⟩ hF hD hX hW hS hb hw
  have h1 : subWriteback s.beginStep = .go s.beginStep := subWriteback_none _ hW
  have h2 : subMemory s.beginStep = s.beginStep := subMemory_none _ hX
  have h3 : subExecute s.beginStep = (s.beginStep, false) := subExecute_none _ hD
  have h4 : subDecode (shiftWindow s.beginStep) = .go (shiftWindow s.beginStep) := subDecode_none _ hF
  have hdrained : (shiftWindow s.beginStep).drained = true :=
    (State.drained_iff _).2 ⟨hF, hD, hX, hW, hS, hb⟩
  have h5 : subFetch false (shiftWindow s.beginStep) =
      .stop ((shiftWindow s.beginStep).emit .ifNone).finish := by
    rw [subFetch_nothing (shiftWindow s.beginStep) hb hw, if_pos hdrained]
  rw [step_pipelined s hs hp]
  simp only [pipelinedStep, pipelineBack, h1, h2, h3, h4, h5, SubStep.andThen, SubStep.outcome]
  rfl

end Sys2Proof.Machine
end

section
/-! PROOFS. The stage procedures on what they read, and the instruction run alone by its stages (R201, R222 to
R226): so an instruction in flight computes what it computes alone. -/

namespace Sys2Proof.Machine

open Sys2Proof.Safety Sys2Proof.Claims

/-! ## What the stages read -/

/-- The parameters give the instructions the same meaning: the overflow results, the windows and the termination
address agree. The entry values and the mode flags may differ. -/
structure SameMeaning (p q : Params) : Prop where
  quotient : p.divOverflowQ = q.divOverflowQ
  remainder : p.divOverflowR = q.divOverflowR
  region : Params.accessRegion p = Params.accessRegion q
  termAddr : p.termAddr = q.termAddr

theorem sameMeaning_of_eq {p q : Params} (h : p = q) : SameMeaning p q := by
  subst h
  exact ⟨rfl, rfl, rfl, rfl⟩

/-- Of the record the execute stage reads the instruction and its address, of the state A, B and the parameters:
these give Z, a store's or jump's M, and a branch's outcome (R201). -/
theorem executeStage_outputs (i j : Rec) (s v : State) (hi : i.instr = j.instr) (hf : i.fpc = j.fpc)
    (hA : s.bufA = v.bufA) (hB : s.bufB = v.bufB) (hp : SameMeaning s.params v.params) :
    (executeStage i s).2.bufZ = (executeStage j v).2.bufZ ∧
      (j.instr.isStore = true ∨ j.instr.isJump = true →
        (executeStage i s).2.bufM = (executeStage j v).2.bufM) ∧
      (j.instr.isBranch = true → (executeStage i s).1.taken = (executeStage j v).1.taken) := by
  obtain ⟨n, a, q, p, tk⟩ := i
  obtain ⟨n', a', q', p', tk'⟩ := j
  obtain rfl : n = n' := hi
  obtain rfl : a = a' := hf
  cases n
  case div | rem =>
    by_cases h : v.bufB = 0#32 <;>
      simp [executeStage, executeDiv, executeRem, executeDivide, aluDiv, aluRem, hA, hB, hp.quotient,
        hp.remainder, h, Instr.isStore, Instr.isJump, Instr.isBranch, Instr.opcode, opR, opStore, opJal, opJalr,
        opBranch]
  all_goals
    simp [executeStage, executeAdd, executeSub, executeSll, executeSlt, executeXor, executeSrl, executeSra,
      executeOr, executeAnd, executeMul, executeAddi, executeAndi, executeOri, executeLb, executeLh, executeLw,
      executeLd, executeSb, executeSh, executeSw, executeSd, executeBeq, executeBne, executeBlt, executeBge,
      executeLui, executeAuipc, executeJal, executeJalr, executeAlu, executeLoad, executeStore, executeBranch,
      State.loadAddr, State.storeAddr, State.jalrTarget, Rec.target, Rec.next, hA, hB, Instr.isStore,
      Instr.isJump, Instr.isBranch, Instr.opcode, opR, opI, opLoad, opStore, opJal, opJalr, opBranch, opLui,
      opAuipc]

/-- Two states are left with the same Y and the same byte spaces. -/
def SameAccess (s v : State) : Prop := s.bufY = v.bufY ∧ s.data = v.data ∧ s.stack = v.stack

section
variable {s v : State} (hZ : s.bufZ = v.bufZ) (hd : s.data = v.data) (hk : s.stack = v.stack)
  (hp : SameMeaning s.params v.params)
include hZ hd hk hp

theorem memoryLoad_sameAccess (n : Nat) (ext : BitVec (8 * n) → Word) :
    SameAccess (memoryLoad n ext s) (memoryLoad n ext v) := by
  have hr : Params.accessRegion s.params s.bufZ n = Params.accessRegion v.params v.bufZ n := by
    rw [hp.region, hZ]
  cases h : Params.accessRegion v.params v.bufZ n with
  | none =>
    rw [memoryLoad_outOfRange n ext s (hr.trans h), memoryLoad_outOfRange n ext v h]
    exact ⟨rfl, hd, hk⟩
  | some g =>
    rw [memoryLoad_inRange n ext s g (hr.trans h), memoryLoad_inRange n ext v g h, hZ]
    exact ⟨by cases g <;> simp [State.space, hd, hk], hd, hk⟩

theorem memoryStore_sameAccess (hM : s.bufM = v.bufM) (n : Nat) (val : Word → BitVec (8 * n)) :
    SameAccess (memoryStore n val s) (memoryStore n val v) := by
  have hr : Params.accessRegion s.params s.bufZ n = Params.accessRegion v.params v.bufZ n := by
    rw [hp.region, hZ]
  cases h : Params.accessRegion v.params v.bufZ n with
  | none =>
    rw [memoryStore_outOfRange n val s (hr.trans h), memoryStore_outOfRange n val v h]
    exact ⟨hZ, hd, hk⟩
  | some g =>
    rw [memoryStore_inRange n val s g (hr.trans h), memoryStore_inRange n val v g h, hZ, hM]
    cases g <;> simp [SameAccess, State.setSpace, State.space, hd, hk]

/-- The memory stage gives Y and the two byte spaces from the instruction, Z, a store's M, the spaces and the
parameters (R201). -/
theorem memoryStage_sameAccess (i j : Rec) (hi : i.instr = j.instr)
    (hM : j.instr.isStore = true → s.bufM = v.bufM) : SameAccess (memoryStage i s) (memoryStage j v) := by
  obtain ⟨n, a, q, p, tk⟩ := i
  obtain ⟨n', a', q', p', tk'⟩ := j
  obtain rfl : n = n' := hi
  cases n
  case lb | lh | lw | ld => exact memoryLoad_sameAccess hZ hd hk hp _ _
  case sb | sh | sw | sd => exact memoryStore_sameAccess hZ hd hk hp (hM rfl) _ _
  all_goals exact ⟨hZ, hd, hk⟩

end

/-! ## The instruction run alone -/

/-- The record and the state after the execute stage of `i` run alone from `v` (R201, R224). -/
def aloneExecuted (i : Instr) (v : State) : Rec × State :=
  executeStage (newRec i v.pc (v.seqCtr + 1)) (readOperands i (v.setPc (v.pc + 4#32)).countDecode)

/-- The state after the memory stage of `i` run alone from `v` (R201, R225). -/
def aloneAccessed (i : Instr) (v : State) : State :=
  memoryStage (aloneExecuted i v).1 (branchAtExecute (aloneExecuted i v).1 (aloneExecuted i v).2)

/-- The state that `exec` answers. -/
def execResult (i : Instr) (v : State) : State :=
  jumpAtWriteback (aloneExecuted i v).1
    ((writeback (aloneExecuted i v).1 (aloneAccessed i v).beginStep).emit (.wb (aloneExecuted i v).1))

theorem exec_eq_execResult (i : Instr) (v : State) : exec i v = .next (execResult i v) := exec_stages i v

section
variable (i : Instr) (v : State)

@[simp] theorem aloneExecuted_instr : (aloneExecuted i v).1.instr = i := by simp [aloneExecuted, newRec]
@[simp] theorem aloneExecuted_fpc : (aloneExecuted i v).1.fpc = v.pc := by simp [aloneExecuted, newRec]

theorem execResult_bufZ : (execResult i v).bufZ = (aloneExecuted i v).2.bufZ := by
  simp [execResult, aloneAccessed]
theorem execResult_bufM : (execResult i v).bufM = (aloneExecuted i v).2.bufM := by
  simp [execResult, aloneAccessed]
theorem execResult_bufY : (execResult i v).bufY = (aloneAccessed i v).bufY := by
  simp [execResult]
theorem execResult_data : (execResult i v).data = (aloneAccessed i v).data := by
  simp [execResult]
theorem execResult_stack : (execResult i v).stack = (aloneAccessed i v).stack := by
  simp [execResult]

end

/-- The execute stage of an instruction in flight, on the operands it has alone, computes what it computes alone. -/
theorem executeStage_eq_execResult (i : Rec) (s v : State) (hpc : v.pc = i.fpc)
    (hp : SameMeaning s.params v.params) (hA : v.operandA i.instr = s.bufA)
    (hB : v.operandB i.instr = s.bufB) :
    (executeStage i s).2.bufZ = (execResult i.instr v).bufZ ∧
      (i.instr.isStore = true ∨ i.instr.isJump = true →
        (executeStage i s).2.bufM = (execResult i.instr v).bufM) ∧
      (i.instr.isBranch = true → (executeStage i s).1.taken = (aloneExecuted i.instr v).1.taken) := by
  rw [execResult_bufZ, execResult_bufM]
  exact executeStage_outputs i (newRec i.instr v.pc (v.seqCtr + 1)) s
    (readOperands i.instr (v.setPc (v.pc + 4#32)).countDecode) rfl hpc.symm hA.symm hB.symm hp

/-- The memory stage of an instruction in flight, on the Z, M and memory it has alone, computes what it computes
alone. -/
theorem memoryStage_eq_execResult (i : Rec) (s v : State) (hp : SameMeaning s.params v.params)
    (hd : v.data = s.data) (hk : v.stack = s.stack) (hZ : (execResult i.instr v).bufZ = s.bufZ)
    (hM : i.instr.isStore = true → (execResult i.instr v).bufM = s.bufM) :
    SameAccess (memoryStage i s) (execResult i.instr v) := by
  rw [execResult_bufZ] at hZ
  rw [execResult_bufM] at hM
  rw [SameAccess, execResult_bufY, execResult_data, execResult_stack]
  refine memoryStage_sameAccess ?_ ?_ ?_ ?_ i (aloneExecuted i.instr v).1 (by simp) ?_
  · simpa using hZ.symm
  · simpa [aloneExecuted] using hd.symm
  · simpa [aloneExecuted] using hk.symm
  · simpa [aloneExecuted] using hp
  · simpa using fun h => (hM h).symm

/-! ## In a pipelined step -/

/-- Z and M after a pipelined step are those of D's execute stage, Y and the byte spaces those of X's memory stage
(R205, R206). -/
structure StageOutputs (s t : State) : Prop where
  bufZ : t.bufZ = s.slotD.elim s.bufZ fun i => (executeStage i s).2.bufZ
  bufM : t.bufM = s.slotD.elim s.bufM fun i => (executeStage i s).2.bufM
  bufY : t.bufY = s.slotX.elim s.bufY fun i => (memoryStage i s).bufY
  data : t.data = s.slotX.elim s.data fun i => (memoryStage i s).data
  stack : t.stack = s.slotX.elim s.stack fun i => (memoryStage i s).stack

theorem pipelinedStep_stageOutputs (s t : State) (h : pipelinedStep s = .next t) : StageOutputs s t := by
  obtain ⟨i, -, -, hD, hX, -, -, hs⟩ | ⟨e, fl, he, hs⟩ := pipelinedStep_cases s <;> rw [hs] at h
  · cases h
    constructor <;> simp [hD, hX]
  · have hk := pipelineBack_kept fl e t h
    exact ⟨hk.bufZ.trans he.bufZ, hk.bufM.trans he.bufM, hk.bufY.trans he.bufY, hk.data.trans he.data,
      hk.stack.trans he.stack⟩

/-- Settles O35: what the step leaves is what the two stages leave, and they compute what they compute alone. -/
theorem pipelinedStagesComputeWhatExecDoes : Obligations.PipelinedStagesComputeWhatExecDoes := by
  intro s t ⟨hs, hp⟩ h
  rw [step_pipelined s hs hp] at h
  obtain ⟨hZ, hM, hY, hd, hk⟩ := pipelinedStep_stageOutputs s t h
  constructor
  · intro i v u hD hpc hpar hA hB hu
    rw [exec_eq_execResult] at hu
    cases hu
    obtain ⟨heZ, heM, -⟩ := executeStage_eq_execResult i s v hpc (sameMeaning_of_eq hpar.symm) hA hB
    rw [hZ, hM, hD]
    exact ⟨heZ, heM⟩
  · intro i v u hX hpar hvd hvk hu huZ huM
    rw [exec_eq_execResult] at hu
    cases hu
    rw [hY, hd, hk, hX]
    exact memoryStage_eq_execResult i s v (sameMeaning_of_eq hpar.symm) hvd hvk huZ huM

end Sys2Proof.Machine
end

section
/-! PROOFS. Sub-steps 4 to 8 on an aligned window with an empty D, said once: the state they answer, one case per
way through decode, fetch and promotion (R208 to R218, R250 to R261). -/

namespace Sys2Proof.Machine

open Sys2Proof.Safety Sys2Proof.Claims

/-! ## Hazard detection in both settings -/

/-- What an operand is left as by the step that gives its instruction to D: under forwarding X's Z, else W's Y,
else what was read (R258 to R260). -/
def currentOperand (s : State) (src : Option Reg) (old : Word) : Word :=
  if s.fwdOn = true then forwarded s src old else old

/-- n is the stall need of i with X as index-3 and W as index-2 producer (R252, R255). -/
structure StallNeed (s : State) (i : Instr) (n : Nat) : Prop where
  bound : n ≤ 2
  plain_two : s.fwdOn = false → (n = 2 ↔ DependsOnSlot i s.slotX)
  plain_zero : s.fwdOn = false → (n = 0 ↔ ¬DependsOnSlot i s.slotX ∧ ¬DependsOnSlot i s.slotW)
  forward_bound : s.fwdOn = true → n ≤ 1
  forward_one : s.fwdOn = true →
    (n = 1 ↔ DependsOnSlot i s.slotX ∧ ∀ p, s.slotX = some p → p.instr.isLoad = true)

/-- The entries make both operands current in every state with the buffers Z and Y of s. -/
def MakesCurrent (s : State) (i : Instr) (es : List FwdEntry) : Prop :=
  ∀ t : State, t.bufZ = s.bufZ → t.bufY = s.bufY →
    (es.foldl applyEntry t).bufA = currentOperand s i.rs1 t.bufA ∧
    (es.foldl applyEntry t).bufB = currentOperand s i.rs2 t.bufB

/-- On an aligned window detection never misses a producer; it answers the stall need, and with need 0 entries that
make the operands current. -/
theorem hazardDetect_aligned (s : State) (i : Rec) (h3 : s.win.w3 = slotDest s.slotX)
    (h2 : s.win.w2 = slotDest s.slotW) :
    ∃ n es, hazardDetect i s = .need n es ∧ StallNeed s i.instr n ∧
      (n = 0 → MakesCurrent s i.instr es) := by
  cases hf : s.fwdOn with
  | false =>
    obtain ⟨n, hn, hbound, htwo, hzero⟩ := hazardDetect_plain s i h3 h2 hf
    exact ⟨n, [], hn, ⟨hbound, fun _ => htwo, fun _ => hzero, by simp [hf], by simp [hf]⟩,
      fun _ t _ _ => by simp [currentOperand, hf]⟩
  | true =>
    obtain ⟨n, es, hn, hbound, hone, hes⟩ := hazardDetect_forward s i h3 h2 hf
    refine ⟨n, es, hn, ⟨by omega, by simp [hf], by simp [hf], fun _ => hbound, fun _ => hone⟩,
      fun h0 t hZ hY => ?_⟩
    simpa [currentOperand, hf] using hes h0 t hZ hY

theorem detectForward_entries (s : State) (i : Rec) (src : Option Reg) (dst : FwdDst) (n : Nat)
    (es : List FwdEntry) (h : detectForward s i src dst = .need n es) : ∀ x ∈ es, x.cSeq = i.seq := by
  unfold detectForward at h
  split at h
  · cases h; simp
  · split at h
    · cases h
    · split at h <;> cases h <;> simp
  · split at h
    · cases h
    · cases h; simp

/-- Every entry that detection adds is for the instruction it is asked about (R256). -/
theorem hazardDetect_entries (s : State) (i : Rec) (n : Nat) (es : List FwdEntry)
    (h : hazardDetect i s = .need n es) : ∀ x ∈ es, x.cSeq = i.seq := by
  unfold hazardDetect at h
  split at h
  · cases hA : detectForward s i i.instr.rs1 .A with
    | stuck f => rw [hA] at h; cases h
    | need a as =>
      cases hB : detectForward s i i.instr.rs2 .B with
      | stuck f => rw [hA, hB] at h; cases h
      | need b bs =>
        rw [hA, hB] at h
        cases h
        intro x hx
        rcases List.mem_append.1 hx with hx | hx
        · exact detectForward_entries s i _ _ a as hA x hx
        · exact detectForward_entries s i _ _ b bs hB x hx
  · have hstall : ∀ src, ∃ k, detectStall s.win src = .need k [] := fun src => by
      unfold detectStall
      split <;> exact ⟨_, rfl⟩
    obtain ⟨a, ha⟩ := hstall i.instr.rs1
    obtain ⟨b, hb⟩ := hstall i.instr.rs2
    rw [ha, hb] at h
    cases h
    simp

/-! ## Fetch and forwarding, by what they leave -/

/-- What a fetch attempted at p leaves in F (R212, R214). -/
def State.fetchedAt (s : State) (p : Word) : Option Fetched :=
  (s.ifetch p).map fun w => { word := w, fpc := p }

/-- What a fetch attempted at p leaves in pc (R212, R214). -/
def State.pcAfterFetch (s : State) (p : Word) : Word :=
  if (s.ifetch p).isSome then p + 4#32 else p

theorem fetchedFrom_of_eq {s t : State} {p : Word} (hF : t.slotF = s.fetchedAt p)
    (hpc : t.pc = s.pcAfterFetch p) : FetchedFrom s t p := by
  constructor
  · intro w hw; simp [hF, hpc, State.fetchedAt, State.pcAfterFetch, hw]
  · intro hw; simp [hF, hpc, State.fetchedAt, State.pcAfterFetch, hw]

/-- A fetch that is not withheld and does not complete the run changes F, pc and the trace. -/
theorem subFetch_attempt (s : State) (hb : s.bubble = 0) (hF : s.slotF = none)
    (hd : s.ifetch s.pc = none → s.drained = false) :
    ∃ tr, subFetch false s =
        .go { s with slotF := s.fetchedAt s.pc, pc := s.pcAfterFetch s.pc, trace := tr } ∧
      s.trace ⊆ tr := by
  cases hw : s.ifetch s.pc with
  | some w =>
    refine ⟨s.trace ++ [.ifAt s.pc], ?_, List.subset_append_left _ _⟩
    rw [subFetch_word s w hb hw]
    simp [fetchWord, State.fetchedAt, State.pcAfterFetch, hw]
  | none =>
    refine ⟨s.trace ++ [.ifNone], ?_, List.subset_append_left _ _⟩
    rw [subFetch_nothing s hb hw, hd hw]
    simp [State.emit, State.fetchedAt, State.pcAfterFetch, hw, ← hF]

/-- Sub-step 7 with entries that make D's operands current. -/
theorem applyForwards_current (s u : State) (i : Instr) (h : MakesCurrent s i u.ftab)
    (hZ : u.bufZ = s.bufZ) (hY : u.bufY = s.bufY) :
    ∃ tr, applyForwards u = { u with
        bufA := currentOperand s i.rs1 u.bufA, bufB := currentOperand s i.rs2 u.bufB, ftab := [],
        trace := tr } ∧ u.trace ⊆ tr := by
  obtain ⟨hA, hB⟩ := h u hZ hY
  obtain ⟨a, b, tr, hshape⟩ := applyForwards_shape u
  have hA' : (applyForwards u).bufA = currentOperand s i.rs1 u.bufA := hA
  have hB' : (applyForwards u).bufB = currentOperand s i.rs2 u.bufB := hB
  refine ⟨tr, ?_, fun x hx => by simpa [hshape] using applyForwards_trace u x hx⟩
  rw [hshape] at hA' hB' ⊢
  rw [← hA', ← hB']

/-! ## The result -/

/-- What sub-steps 1 to 3 leave to sub-steps 4 to 8 of a machine that meets the invariant: D is empty, the window is
about to be aligned with X and W, and whatever is parked stands alone before X. -/
structure BackReady (e : State) (fl : Bool) : Prop where
  emptyD : e.slotD = none
  ftabEmpty : e.ftab = []
  newestIsX : e.win.w4 = slotDest e.slotX
  index3IsW : e.win.w3 = slotDest e.slotW
  parkedAlone : e.slotS ≠ none → e.slotF = none ∧ e.slotX = none
  bubbleParked : 0 < e.bubble → e.slotS ≠ none
  flushed : fl = true → e.slotF = none ∧ e.slotS = none

theorem BackReady.slotS_of_word {e : State} {fl : Bool} (h : BackReady e fl) {f : Fetched}
    (hF : e.slotF = some f) : e.slotS = none := by
  by_contra hS
  rw [(h.parkedAlone hS).1] at hF
  cases hF

theorem BackReady.bubble_of_emptyS {e : State} {fl : Bool} (h : BackReady e fl) (hS : e.slotS = none) :
    e.bubble = 0 := by
  by_contra hb
  exact h.bubbleParked (Nat.pos_of_ne_zero hb) hS

/-- The record of a word decoded now (R209). -/
def decodedRec (i : Instr) (a : Word) (e : State) : Rec :=
  { instr := i, fpc := a, seq := e.seqCtr + 1, predTaken := e.predictsTaken i, taken := none }

/-- pc after the decode of a word fetched from a: redirected if predicted taken (R209). -/
def decodedPc (i : Instr) (a : Word) (e : State) : Word :=
  if e.predictsTaken i = true then a + i.imm else e.pc

/-- The state that sub-steps 4 to 8 answer from e, one case per way through them. -/
inductive BackResult (e : State) (fl : Bool) : State → Prop where
  | decodeError (f : Fetched) (c : ErrCode) (hF : e.slotF = some f) (hc : decodeError f.word = some c) :
    BackResult e fl ((shiftWindow e).emptyF.raiseFatal c f.word)
  | parked (f : Fetched) (i : Instr) (n : Nat) (tr : List Event) (hF : e.slotF = some f)
      (hd : decode f.word = .ok i) (hneed : StallNeed e i n) (hpos : 0 < n)
      (hstall : Event.stall n ∈ tr) (hbubble : Event.bubble ∈ tr) :
    BackResult e fl { e with
      pc := decodedPc i f.fpc e, bufA := e.operandA i, bufB := e.operandB i, slotF := none,
      slotS := some (decodedRec i f.fpc e), win := e.win.shift, bubble := n - 1,
      seqCtr := e.seqCtr + 1, trace := tr }
  | entered (f : Fetched) (i : Instr) (tr : List Event) (hF : e.slotF = some f)
      (hd : decode f.word = .ok i) (hneed : StallNeed e i 0) :
    BackResult e fl { e with
      pc := e.pcAfterFetch (decodedPc i f.fpc e), slotF := e.fetchedAt (decodedPc i f.fpc e),
      bufA := currentOperand e i.rs1 (e.operandA i), bufB := currentOperand e i.rs2 (e.operandB i),
      slotD := some (decodedRec i f.fpc e), win := e.win.shift.setNewest i.effDest,
      seqCtr := e.seqCtr + 1, trace := tr }
  | waited (i : Rec) (tr : List Event) (hS : e.slotS = some i) (hb : 0 < e.bubble)
      (hbubble : Event.bubble ∈ tr) :
    BackResult e fl { e with win := e.win.shift, bubble := e.bubble - 1, trace := tr }
  | promoted (i : Rec) (tr : List Event) (hS : e.slotS = some i) (hb : e.bubble = 0)
      (hpromote : Event.promote i ∈ tr) :
    BackResult e fl { e with
      pc := e.pcAfterFetch e.pc, slotF := e.fetchedAt e.pc, slotS := none, slotD := some i,
      bufA := currentOperand e i.instr.rs1 (e.operandA i.instr),
      bufB := currentOperand e i.instr.rs2 (e.operandB i.instr),
      win := e.win.shift.setNewest i.instr.effDest, trace := tr }
  | withheld (tr : List Event) (hfl : fl = true) (hF : e.slotF = none) (hS : e.slotS = none)
      (hwithheld : Event.ifWithheld ∈ tr) :
    BackResult e fl { e with win := e.win.shift, trace := tr }
  | fetched (tr : List Event) (hfl : fl = false) (hF : e.slotF = none) (hS : e.slotS = none)
      (hd : e.ifetch e.pc = none → e.drained = false) :
    BackResult e fl { e with
      pc := e.pcAfterFetch e.pc, slotF := e.fetchedAt e.pc, win := e.win.shift, trace := tr }
  | completed (tr : List Event) (hfl : fl = false) (hd : e.drained = true) (hw : e.ifetch e.pc = none) :
    BackResult e fl { e with win := e.win.shift, done := true, trace := tr }

/-! ## Decode of a good word -/

/-- Sub-steps 4 to 8 where none of them ends the step (R202). -/
theorem pipelineBack_of_go {fl : Bool} {e v w u t : State} (h4 : subDecode (shiftWindow e) = .go v)
    (h5 : subFetch fl v = .go w) (h6 : subPromote w = .go u) (h78 : decrementBubble (applyForwards u) = t) :
    (pipelineBack fl e).outcome = .next t := by
  simp only [pipelineBack, h4, h5, h6, h78, SubStep.andThen, SubStep.outcome]

/-- Sub-steps 7 and 8 with nothing to forward (R217, R218). -/
theorem decrementBubble_applyForwards_nil (u : State) (hft : u.ftab = []) :
    decrementBubble (applyForwards u) = { u with bubble := u.bubble - 1 } := by
  simp [decrementBubble, applyForwards, hft]

/-- The state that decode hands to hazard detection (R209). -/
abbrev decodedState (i : Instr) (a : Word) (e : State) (tr : List Event) : State :=
  { e with
    pc := decodedPc i a e, bufA := e.operandA i, bufB := e.operandB i, slotF := none, win := e.win.shift,
    seqCtr := e.seqCtr + 1, trace := tr }

theorem subDecode_word (e : State) (f : Fetched) (i : Instr) (hF : e.slotF = some f)
    (hd : decode f.word = .ok i) : ∃ tr, subDecode (shiftWindow e) =
      placeDecoded (decodedRec i f.fpc e) (decodedState i f.fpc e tr) := by
  obtain ⟨r, v, hplace, hr, hv⟩ := decodeInstr_eq i f.fpc (shiftWindow e).emptyF
  refine ⟨v.trace, ?_⟩
  rw [subDecode_ok (shiftWindow e) f i hF hd, hplace, hr, hv]
  rfl

theorem pipelineBack_decodeError (e : State) (fl : Bool) (f : Fetched) (c : ErrCode)
    (hF : e.slotF = some f) (hc : decodeError f.word = some c) :
    (pipelineBack fl e).outcome = .next ((shiftWindow e).emptyF.raiseFatal c f.word) := by
  have h4 : subDecode (shiftWindow e) = .stop ((shiftWindow e).emptyF.raiseFatal c f.word) := by
    obtain ⟨i, -, hnone⟩ | ⟨c', hc', ⟨hd, rfl⟩ | ⟨hd, rfl⟩⟩ := decode_cases f.word
    · rw [hnone] at hc; cases hc
    · rw [hc'] at hc; cases hc; exact subDecode_unknownOpcode _ f hF hd
    · rw [hc'] at hc; cases hc; exact subDecode_unknownFunct _ f hF hd
  simp only [pipelineBack, h4, SubStep.andThen, SubStep.outcome]

/-- A decoded instruction that must wait: it is parked, nothing is fetched or promoted, and no entry for it is left. -/
theorem pipelineBack_parked (e : State) (f : Fetched) (i : Instr) (n : Nat) (es : List FwdEntry)
    (v : State) (hv : subDecode (shiftWindow e) = placeDecoded (decodedRec i f.fpc e) v)
    (hft : v.ftab = []) (hneed : hazardDetect (decodedRec i f.fpc e) v = .need n es) (hpos : 0 < n) :
    ∃ tr, (pipelineBack false e).outcome = .next { v with
        slotS := some (decodedRec i f.fpc e), bubble := n - 1, ftab := [], trace := tr } ∧
      Event.stall n ∈ tr ∧ Event.bubble ∈ tr := by
  have hes : es.filter (fun x => x.cSeq ≠ (decodedRec i f.fpc e).seq) = [] := by
    simpa using hazardDetect_entries v _ n es hneed
  let u := park (decodedRec i f.fpc e) n (v.addForwards es)
  have hu : u = { v with
      slotS := some (decodedRec i f.fpc e), bubble := n, ftab := [], trace := v.trace ++ [.stall n] } := by
    simp only [u, park, State.addForwards, hft, List.nil_append, hes]
  have hplace : placeDecoded (decodedRec i f.fpc e) v = .go u := by
    simp [placeDecoded, hneed, hpos, u]
  have hfetch : subFetch false u = .go (u.emit .bubble) := subFetch_bubble u hpos
  have hpromote : subPromote (u.emit .bubble) = .go (u.emit .bubble) :=
    subPromote_wait _ (decodedRec i f.fpc e) rfl hpos
  refine ⟨v.trace ++ [.stall n] ++ [.bubble], ?_, by simp, by simp⟩
  refine pipelineBack_of_go (hv.trans hplace) hfetch hpromote ?_
  rw [hu]
  rfl

/-- D takes an instruction, at decode or at promotion, with entries that make its operands current: what is left of
the step after the fetch. -/
theorem forwards_of_entered (s u : State) (i : Instr) (hb : u.bubble = 0)
    (h : MakesCurrent s i u.ftab) (hZ : u.bufZ = s.bufZ) (hY : u.bufY = s.bufY) :
    ∃ tr, decrementBubble (applyForwards u) = { u with
        bufA := currentOperand s i.rs1 u.bufA, bufB := currentOperand s i.rs2 u.bufB, ftab := [],
        trace := tr } ∧ u.trace ⊆ tr := by
  obtain ⟨tr, heq, htr⟩ := applyForwards_current s u i h hZ hY
  refine ⟨tr, ?_, htr⟩
  rw [heq, decrementBubble, hb]

/-- A decoded instruction that need not wait: D takes it, the fetch is attempted at the pc that decode left, and the
operands are forwarded. -/
theorem pipelineBack_entered (e : State) (f : Fetched) (i : Instr) (es : List FwdEntry) (v : State)
    (hv : subDecode (shiftWindow e) = placeDecoded (decodedRec i f.fpc e) v) (hft : v.ftab = [])
    (hF : v.slotF = none) (hS : v.slotS = none) (hb : v.bubble = 0)
    (hneed : hazardDetect (decodedRec i f.fpc e) v = .need 0 es) (hes : MakesCurrent v i es) :
    ∃ tr, (pipelineBack false e).outcome = .next { v with
        pc := v.pcAfterFetch v.pc, slotF := v.fetchedAt v.pc,
        bufA := currentOperand v i.rs1 v.bufA, bufB := currentOperand v i.rs2 v.bufB,
        slotD := some (decodedRec i f.fpc e), win := v.win.setNewest i.effDest, trace := tr } := by
  let u := enterD (decodedRec i f.fpc e) (v.addForwards es)
  have hplace : placeDecoded (decodedRec i f.fpc e) v = .go u := by
    simp [placeDecoded, hneed, u]
  obtain ⟨tr, hfetch, -⟩ := subFetch_attempt u hb hF fun _ => by simp [State.drained, u]
  let w : State := { u with slotF := u.fetchedAt u.pc, pc := u.pcAfterFetch u.pc, trace := tr }
  have hpromote : subPromote w = .go w := subPromote_none w hS
  obtain ⟨tr', hlast, -⟩ := forwards_of_entered v w i hb
    (by simpa [w, u, State.addForwards, hft] using hes) rfl rfl
  refine ⟨tr', pipelineBack_of_go (hv.trans hplace) hfetch hpromote (hlast.trans ?_)⟩
  rw [← hft]
  rfl

/-- With F empty and S waiting only the window, the bubble counter and the trace change (R213, R218). -/
theorem pipelineBack_waited (e : State) (i : Rec) (hF : e.slotF = none) (hS : e.slotS = some i)
    (hb : 0 < e.bubble) (hft : e.ftab = []) : (pipelineBack false e).outcome = .next { e with
      win := e.win.shift, bubble := e.bubble - 1, trace := e.trace ++ [.bubble] } := by
  refine pipelineBack_of_go (subDecode_none (shiftWindow e) hF) (subFetch_bubble (shiftWindow e) hb)
    (subPromote_wait ((shiftWindow e).emit .bubble) i hS hb) ?_
  exact decrementBubble_applyForwards_nil ((shiftWindow e).emit .bubble) hft

/-- Promotion on an aligned window with X empty: the operands read again are made current (R216, R258). -/
theorem subPromote_current (u : State) (i : Rec) (hS : u.slotS = some i) (hb : u.bubble = 0)
    (h3 : u.win.w3 = slotDest u.slotX) (h2 : u.win.w2 = slotDest u.slotW) (hX : u.slotX = none) :
    ∃ es, subPromote u = .go ((promoted i u).addForwards es) ∧ MakesCurrent u i.instr es := by
  cases hf : u.fwdOn with
  | false =>
    refine ⟨[], ?_, fun t _ _ => by simp [currentOperand, hf]⟩
    rw [subPromote_plain u i hS hb hf]
    simp [State.addForwards]
  | true =>
    obtain ⟨n, es, hneed, hstall, hes⟩ := hazardDetect_aligned (promoted i u) i h3 h2
    have hn : n = 0 := by
      have hne : n ≠ 1 := fun h1 => by
        obtain ⟨⟨r, -, hr⟩, -⟩ := (hstall.forward_one hf).1 h1
        rw [show (promoted i u).slotX = none from hX] at hr
        cases hr
      have := hstall.forward_bound hf
      omega
    exact ⟨es, subPromote_forward u i n es hS hb hf hneed, hes hn⟩

/-- With F empty and S no longer waiting the fetch is attempted and D takes S with its operands current. -/
theorem pipelineBack_promoted (e : State) (i : Rec) (hF : e.slotF = none) (hS : e.slotS = some i)
    (hb : e.bubble = 0) (hft : e.ftab = []) (h3 : e.win.w4 = slotDest e.slotX)
    (h2 : e.win.w3 = slotDest e.slotW) (hX : e.slotX = none) :
    ∃ tr, (pipelineBack false e).outcome = .next { e with
        pc := e.pcAfterFetch e.pc, slotF := e.fetchedAt e.pc, slotS := none, slotD := some i,
        bufA := currentOperand e i.instr.rs1 (e.operandA i.instr),
        bufB := currentOperand e i.instr.rs2 (e.operandB i.instr),
        win := e.win.shift.setNewest i.instr.effDest, trace := tr } ∧ Event.promote i ∈ tr := by
  obtain ⟨tr, hfetch, -⟩ :=
    subFetch_attempt (shiftWindow e) hb hF fun _ => by simp [State.drained, hS]
  let u : State := { shiftWindow e with
    slotF := e.fetchedAt e.pc, pc := e.pcAfterFetch e.pc, trace := tr }
  obtain ⟨es, hpromote, hes⟩ := subPromote_current u i hS hb h3 h2 hX
  obtain ⟨tr', hlast, htr'⟩ := forwards_of_entered u ((promoted i u).addForwards es) i.instr hb
    (by simpa [promoted, u, hft] using hes) rfl rfl
  refine ⟨tr', pipelineBack_of_go (subDecode_none (shiftWindow e) hF) hfetch hpromote (hlast.trans ?_),
    htr' (List.mem_append_right _ (List.mem_singleton.2 rfl))⟩
  rw [← hft]
  rfl

/-- With F and S empty the step only fetches, or withholds the fetch, or completes the run (R212 to R215). -/
theorem pipelineBack_empty (e : State) (fl : Bool) (h : BackReady e fl) (hF : e.slotF = none)
    (hS : e.slotS = none) : ∃ t, (pipelineBack fl e).outcome = .next t ∧ BackResult e fl t := by
  have hb : e.bubble = 0 := h.bubble_of_emptyS hS
  have h4 := subDecode_none (shiftWindow e) hF
  have hlast : ∀ u : State, u.ftab = e.ftab → u.bubble = e.bubble →
      decrementBubble (applyForwards u) = u := fun u hft hbu => by
    have hbu' : u.bubble = 0 := hbu.trans hb
    rw [decrementBubble_applyForwards_nil u (hft.trans h.ftabEmpty), hbu', Nat.zero_sub, ← hbu']
  cases hfl : fl with
  | true =>
    exact ⟨_, pipelineBack_of_go h4 (subFetch_flush _) (subPromote_none _ hS) (hlast _ rfl rfl),
      .withheld (e.trace ++ [Event.ifWithheld]) rfl hF hS (by simp)⟩
  | false =>
    by_cases hdone : e.ifetch e.pc = none ∧ e.drained = true
    · obtain ⟨hw, hd⟩ := hdone
      have h5 := subFetch_nothing (shiftWindow e) hb hw
      rw [show (shiftWindow e).drained = true from hd, if_pos rfl] at h5
      refine ⟨_, ?_, .completed (e.trace ++ [Event.ifNone] ++ [Event.done]) rfl hd hw⟩
      simp only [pipelineBack, h4, h5, SubStep.andThen, SubStep.outcome]
      rfl
    · have hd : e.ifetch e.pc = none → e.drained = false := fun hw => by
        simpa using fun hd => hdone ⟨hw, hd⟩
      obtain ⟨tr, h5, -⟩ := subFetch_attempt (shiftWindow e) hb hF hd
      exact ⟨_, pipelineBack_of_go h4 h5 (subPromote_none _ hS) (hlast _ rfl rfl),
        .fetched tr rfl hF hS hd⟩

/-- With a good word in F, D takes the instruction or it is parked. -/
theorem pipelineBack_word (e : State) (fl : Bool) (h : BackReady e fl) (f : Fetched) (i : Instr)
    (hF : e.slotF = some f) (hd : decode f.word = .ok i) :
    ∃ t, (pipelineBack fl e).outcome = .next t ∧ BackResult e fl t := by
  obtain rfl : fl = false := by
    cases fl with
    | false => rfl
    | true => rw [(h.flushed rfl).1] at hF; cases hF
  have hS : e.slotS = none := h.slotS_of_word hF
  have hb : e.bubble = 0 := h.bubble_of_emptyS hS
  obtain ⟨tr, hv⟩ := subDecode_word e f i hF hd
  obtain ⟨n, es, hneed, hstall, hes⟩ :=
    hazardDetect_aligned (decodedState i f.fpc e tr) (decodedRec i f.fpc e) h.newestIsX h.index3IsW
  have hstall' : StallNeed e i n := ⟨hstall.bound, hstall.plain_two, hstall.plain_zero,
    hstall.forward_bound, hstall.forward_one⟩
  obtain rfl | hpos := Nat.eq_zero_or_pos n
  · obtain ⟨tr', hback⟩ := pipelineBack_entered e f i es _ hv h.ftabEmpty rfl hS hb hneed (hes rfl)
    exact ⟨_, hback, .entered f i tr' hF hd hstall'⟩
  · obtain ⟨tr', hback, hs, hbub⟩ := pipelineBack_parked e f i n es _ hv h.ftabEmpty hneed hpos
    refine ⟨_, hback, ?_⟩
    rw [← h.ftabEmpty]
    exact .parked f i n tr' hF hd hstall' hpos hs hbub

/-- Sub-steps 4 to 8 answer a next state, by what F and S hold. -/
theorem pipelineBack_result (e : State) (fl : Bool) (h : BackReady e fl) :
    ∃ t, (pipelineBack fl e).outcome = .next t ∧ BackResult e fl t := by
  cases hF : e.slotF with
  | some f =>
    obtain ⟨i, hd, -⟩ | ⟨c, hc, -⟩ := decode_cases f.word
    · exact pipelineBack_word e fl h f i hF hd
    · exact ⟨_, pipelineBack_decodeError e fl f c hF hc, .decodeError f c hF hc⟩
  | none =>
    cases hS : e.slotS with
    | none => exact pipelineBack_empty e fl h hF hS
    | some i =>
      obtain rfl : fl = false := by
        cases fl with
        | false => rfl
        | true => rw [(h.flushed rfl).2] at hS; cases hS
      obtain hb | hb := Nat.eq_zero_or_pos e.bubble
      · obtain ⟨tr, hback, htr⟩ := pipelineBack_promoted e i hF hS hb h.ftabEmpty h.newestIsX h.index3IsW
          (h.parkedAlone (by simp [hS])).2
        exact ⟨_, hback, .promoted i tr hS hb htr⟩
      · exact ⟨_, pipelineBack_waited e i hF hS hb h.ftabEmpty, .waited i _ hS hb (by simp)⟩

end Sys2Proof.Machine
end

section
/-! PROOFS. The pipelined step of a machine that meets the invariant, by its front and its back; promotion and
completion read off it (R204, R213 to R218). -/

namespace Sys2Proof.Machine

open Sys2Proof.Safety Sys2Proof.Claims

/-- What a pipelined step of a machine that meets the invariant answers: the run completes at the writeback of a
drained pipeline, or sub-steps 1 to 3 go on and sub-steps 4 to 8 answer. -/
inductive StepResult (s : State) : State → Prop where
  | lastWriteback (i : Rec) (hW : s.slotW = some i) (hF : s.slotF = none) (hD : s.slotD = none)
      (hX : s.slotX = none) (hS : s.slotS = none) (hb : s.bubble = 0) :
    StepResult s ((writeback i s.beginStep).emit (.wb i)).emptyW.finish
  | through (e : State) (fl : Bool) (t : State) (front : Front s e fl) (ready : BackReady e fl)
      (back : BackResult e fl t) : StepResult s t

/-- The execute stage keeps an instruction's destination. -/
theorem slotDest_executeStage (d : Option Rec) (s : State) :
    slotDest (d.map fun i => (executeStage i s).1) = slotDest d := by
  cases d <;> simp [slotDest]

/-- Sub-steps 1 to 3 leave what sub-steps 4 to 8 need: X and W have taken D's and X's place below the window's
entries, and a parked instruction has kept D and F empty. -/
theorem Front.backReady {s e : State} {fl : Bool} (h : Front s e fl) (hs : PipeInv s) : BackReady e fl where
  emptyD := h.slotD
  ftabEmpty := h.ftab.trans hs.ftabEmpty
  newestIsX := by rw [h.win, h.slotX, slotDest_executeStage, hs.newestIsD]
  index3IsW := by rw [h.win, h.slotW, hs.index3IsX]
  parkedAlone hS := by
    rw [h.slotS] at hS
    obtain ⟨hD, hF⟩ := hs.parkedAlone hS
    rw [h.slotF, h.slotX, hD, hF]
    simp
  bubbleParked hb := by
    rw [h.bubble] at hb
    rw [h.slotS]
    exact hs.bubbleParked hb
  flushed hfl := by
    refine ⟨by rw [h.slotF, if_pos hfl], ?_⟩
    by_contra hS
    rw [h.slotS] at hS
    rw [h.flush_eq, (hs.parkedAlone hS).1] at hfl
    cases hfl

theorem pipelinedStep_result (s : State) (hs : PipeInv s) :
    ∃ t, pipelinedStep s = .next t ∧ StepResult s t := by
  obtain ⟨i, hW, hF, hD, hX, hS, hb, hstep⟩ | ⟨e, fl, hfront, hstep⟩ := pipelinedStep_cases s
  · exact ⟨_, hstep, .lastWriteback i hW hF hD hX hS hb⟩
  · obtain ⟨t, ht, hback⟩ := pipelineBack_result e fl (hfront.backReady hs)
    exact ⟨t, hstep.trans ht, .through e fl t hfront (hfront.backReady hs) hback⟩

/-- The step of a running pipelined machine that meets the invariant. -/
theorem step_result (s : State) (hinv : Inv s) (hrun : RunsPipelined s) :
    ∃ t, step s = .next t ∧ StepResult s t := by
  obtain ⟨hs, hp⟩ := hrun
  rw [step_pipelined s hs hp]
  exact pipelinedStep_result s (hinv.pipelined hs hp)

/-- With D empty sub-steps 1 to 3 leave pc and F alone. -/
theorem Front.of_emptyD {s e : State} {fl : Bool} (h : Front s e fl) (hD : s.slotD = none) :
    fl = false ∧ e.pc = s.pc ∧ e.slotF = s.slotF := by
  have hfl := h.flush_eq
  have hpc := h.pc
  rw [hD] at hfl hpc
  refine ⟨hfl, hpc, ?_⟩
  rw [h.slotF, hfl]
  rfl

/-! ## Promotion -/

/-- The two ways of a step with an instruction in S, as an equation on the state after sub-steps 1 to 3. -/
theorem BackResult.of_parked {e t : State} {fl : Bool} (h : BackResult e fl t) (i : Rec)
    (hS : e.slotS = some i) (hF : e.slotF = none) :
    (0 < e.bubble ∧ ∃ tr, Event.bubble ∈ tr ∧
      t = { e with win := e.win.shift, bubble := e.bubble - 1, trace := tr }) ∨
    (e.bubble = 0 ∧ ∃ tr, Event.promote i ∈ tr ∧ t = { e with
      pc := e.pcAfterFetch e.pc, slotF := e.fetchedAt e.pc, slotS := none, slotD := some i,
      bufA := currentOperand e i.instr.rs1 (e.operandA i.instr),
      bufB := currentOperand e i.instr.rs2 (e.operandB i.instr),
      win := e.win.shift.setNewest i.instr.effDest, trace := tr }) := by
  cases h with
  | decodeError _ _ h | parked _ _ _ _ h | entered _ _ _ h => rw [hF] at h; cases h
  | withheld _ _ _ h | fetched _ _ _ h => rw [hS] at h; cases h
  | completed _ _ hd _ => rw [State.drained_iff, hS] at hd; simp at hd
  | waited j tr _ hb hbub => exact .inl ⟨hb, tr, hbub, rfl⟩
  | promoted j tr hj hb hpro =>
    rw [hS] at hj
    cases hj
    exact .inr ⟨hb, tr, hpro, rfl⟩

/-- Settles O44: of the ways through a step only waiting and promotion have an instruction in S. -/
theorem parkedInstructionIsPromotedAtZero : Obligations.ParkedInstructionIsPromotedAtZero := by
  intro s i hinv hrun hS
  have hpipe := hinv.pipelined hrun.1 hrun.2
  obtain ⟨t, ht, hres⟩ := step_result s hinv hrun
  refine ⟨t, ht, ?_⟩
  cases hres with
  | lastWriteback _ _ _ _ _ hS' => rw [hS] at hS'; cases hS'
  | through e fl t hfront hready hback =>
    obtain ⟨-, hpc, hF⟩ := hfront.of_emptyD (hpipe.parkedAlone (by simp [hS])).1
    rw [(hpipe.parkedAlone (by simp [hS])).2] at hF
    have heS : e.slotS = some i := hfront.slotS.trans hS
    obtain ⟨hb, tr, hev, rfl⟩ | ⟨hb, tr, hev, rfl⟩ := hback.of_parked i heS hF <;>
      rw [hfront.bubble] at hb
    · refine ⟨fun _ => ⟨heS, congrArg (· - 1) hfront.bubble, hready.emptyD, hF, hpc, hev⟩, fun h0 => ?_⟩
      omega
    · refine ⟨fun hpos => by omega, fun _ => ⟨rfl, rfl, hfront.bubble.trans hb, rfl, ?_, hev⟩⟩
      refine fetchedFrom_of_eq ?_ ?_
      · rw [← hpc]; simp only [State.fetchedAt, hfront.ifetch_eq]
      · rw [← hpc]; simp only [State.pcAfterFetch, hfront.ifetch_eq]

/-! ## Completion -/

/-- Before sub-step 4 the pipeline is drained exactly if F, D, X and S were empty and no stall pending: what was in
W has retired, and D and X have moved on. -/
theorem Front.drained_iff {s e : State} {fl : Bool} (h : Front s e fl) : e.drained = true ↔
    e.slotF = none ∧ s.slotD = none ∧ s.slotX = none ∧ s.slotS = none ∧ s.bubble = 0 := by
  rw [State.drained_iff, h.slotD, h.slotX, h.slotW, h.slotS, h.bubble]
  simp

/-- Sub-steps 4 to 8 complete the run exactly from a drained pipeline whose fetch finds nothing, and then only the
window, the status and the trace change. -/
theorem BackResult.done_iff {e t : State} {fl : Bool} (h : BackResult e fl t) (hdn : e.done = false) :
    (t.done = true ↔ fl = false ∧ e.drained = true ∧ e.ifetch e.pc = none) ∧
      (t.done = true → ∃ tr, t = { e with win := e.win.shift, done := true, trace := tr }) := by
  cases h with
  | completed tr hfl hd hw => simp [hfl, hd, hw]
  | withheld _ hfl => simp [hfl, hdn]
  | fetched _ _ _ _ hd =>
    refine ⟨?_, by simp [hdn]⟩
    simp only [hdn, Bool.false_eq_true, false_iff]
    rintro ⟨-, hd', hw⟩
    rw [hd hw] at hd'
    cases hd'
  | decodeError _ _ hF | parked _ _ _ _ hF | entered _ _ _ hF => simp [State.drained_iff, hdn, hF]
  | waited _ _ hS | promoted _ _ hS => simp [State.drained_iff, hdn, hS]

/-- A step that goes through completes the run exactly if it found all slots but W empty, no stall pending and
nothing to fetch at pc. -/
theorem Front.completes_iff {s e t : State} {fl : Bool} (h : Front s e fl) (hb : BackResult e fl t)
    (hdn : s.done = false) : t.done = true ↔
      s.slotF = none ∧ s.slotD = none ∧ s.slotX = none ∧ s.slotS = none ∧ s.bubble = 0 ∧
        s.ifetch s.pc = none := by
  rw [(hb.done_iff (h.done.trans hdn)).1, h.drained_iff, h.ifetch_eq]
  constructor
  · rintro ⟨-, ⟨hF, hD, hX, hS, hbub⟩, hw⟩
    obtain ⟨-, hpc, hF'⟩ := h.of_emptyD hD
    exact ⟨hF'.symm.trans hF, hD, hX, hS, hbub, hpc ▸ hw⟩
  · rintro ⟨hF, hD, hX, hS, hbub, hw⟩
    obtain ⟨hfl, hpc, hF'⟩ := h.of_emptyD hD
    exact ⟨hfl, ⟨hF'.trans hF, hD, hX, hS, hbub⟩, hpc ▸ hw⟩

/-- Settles O47: the step completes at the last writeback, where the invariant says that the fetch has ended, or
goes through and completes at its fetch. -/
theorem doneOnlyWhenDrained : Obligations.DoneOnlyWhenDrained := by
  intro s t hinv hrun hstep
  obtain ⟨hdn, hft⟩ := (State.halted_eq_false_iff s).1 hrun.1
  have hpipe := hinv.pipelined hrun.1 hrun.2
  obtain ⟨t', ht', hres⟩ := step_result s hinv hrun
  rw [hstep] at ht'
  cases ht'
  cases hres with
  | lastWriteback i hW hF hD hX hS hb =>
    have hw : s.ifetch s.pc = none := hpipe.fetchEnded hF hS hX (.inr (by simp [hW]))
    have hw' : ((writeback i s.beginStep).emit (.wb i)).emptyW.finish.ifetch
        ((writeback i s.beginStep).emit (.wb i)).emptyW.finish.pc = none := by simpa using hw
    exact ⟨fun _ => ⟨by simpa using hF, by simpa using hD, by simpa using hX, rfl, by simpa using hS,
      by simpa using hb, hw', by simpa using hft⟩,
      fun _ => ⟨hF, hD, hX, hS, hb, .inl (by simp [hW])⟩, fun _ => rfl⟩
  | through e fl t hfront hready hback =>
    have hiff := hfront.completes_iff hback hdn
    constructor
    · intro hdone
      obtain ⟨hiffe, htr⟩ := hback.done_iff (hfront.done.trans hdn)
      obtain ⟨-, hd, hw⟩ := hiffe.1 hdone
      obtain ⟨hF, hD, hX, hW, hS, hb⟩ := (State.drained_iff e).1 hd
      obtain ⟨tr, rfl⟩ := htr hdone
      exact ⟨hF, hD, hX, hW, hS, hb, hw, hfront.fatal.trans hft⟩
    · rw [hiff]
      constructor
      · rintro ⟨hF, hD, hX, hS, hb, hw⟩
        exact ⟨hF, hD, hX, hS, hb, .inr hw⟩
      · rintro ⟨hF, hD, hX, hS, hb, hW | hw⟩
        · exact ⟨hF, hD, hX, hS, hb, hpipe.fetchEnded hF hS hX (.inr hW)⟩
        · exact ⟨hF, hD, hX, hS, hb, hw⟩

end Sys2Proof.Machine
end

section
/-! PROOFS. A pipelined step keeps the pipelined part of the invariant while the machine runs (R43, R262, R281, R289):
sub-steps 1 to 3 leave its image on the state before decode, and each way through sub-steps 4 to 8 restores it. -/

namespace Sys2Proof.Machine

open Sys2Proof.Safety Sys2Proof.Claims

/-- The image of `PipeInv` after sub-steps 1 to 3. -/
structure FrontInv (e : State) (fl : Bool) : Prop extends BackReady e fl where
  bubbleBound : e.bubble ≤ 2
  programOrder : ((inFlight e).map Rec.seq).Pairwise (· < ·)
  counted : ∀ i ∈ inFlight e, i.seq ≤ e.seqCtr
  predictions : ∀ i ∈ inFlight e, PredictionOk e.predOn i
  fetchAhead : ∀ f, e.slotF = some f → e.pc = f.fpc + 4#32 ∧ e.ifetch f.fpc = some f.word
  sampled : ∀ i, e.slotS = some i → i.instr.isBranch = true → e.predOn = true → i.predTaken = e.predBit
  waited : ∀ i, e.slotS = some i → e.fwdOn = false → e.bubble = 0 → ¬DependsOnSlot i.instr e.slotW
  flushedX : fl = true → e.slotX ≠ none
  phaseUnused : e.phase = .fetch

/-! ## Sub-steps 1 to 3 -/

/-- The record of an instruction in flight, as the step's execute stage leaves it: `taken` alone can differ. -/
theorem mem_inFlight_front {s e : State} {fl : Bool} (h : Front s e fl) (i : Rec) (hi : i ∈ inFlight e) :
    ∃ j ∈ inFlight s, i.instr = j.instr ∧ i.seq = j.seq ∧ i.predTaken = j.predTaken := by
  simp only [inFlight, h.slotW, h.slotX, h.slotD, h.slotS, List.mem_append, Option.mem_toList,
    Option.map_eq_some_iff] at hi ⊢
  obtain ((hX | ⟨j, hD, rfl⟩) | hN) | hS := hi
  · exact ⟨i, .inl (.inl (.inr hX)), rfl, rfl, rfl⟩
  · exact ⟨j, .inl (.inr hD), by simp⟩
  · cases hN
  · exact ⟨i, .inr hS, rfl, rfl, rfl⟩

theorem inFlight_front_seqs {s e : State} {fl : Bool} (h : Front s e fl) :
    ((inFlight e).map Rec.seq).Sublist ((inFlight s).map Rec.seq) := by
  have hD : (e.slotX.toList).map Rec.seq = (s.slotD.toList).map Rec.seq := by
    rw [h.slotX]
    cases s.slotD <;> simp
  simp only [inFlight, h.slotW, h.slotD, h.slotS, List.map_append, hD, Option.toList_none,
    List.append_nil, List.append_assoc]
  exact List.sublist_append_right _ _

theorem Front.predOn_eq {s e : State} {fl : Bool} (h : Front s e fl) : e.predOn = s.predOn := by
  simp only [State.predOn, h.params]

theorem Front.fwdOn_eq {s e : State} {fl : Bool} (h : Front s e fl) : e.fwdOn = s.fwdOn := by
  simp only [State.fwdOn, h.params]

/-- A word still in F after sub-steps 1 to 3 has not been flushed, and pc is as it was. -/
theorem Front.of_word {s e : State} {fl : Bool} (h : Front s e fl) (f : Fetched) (hF : e.slotF = some f) :
    s.slotF = some f ∧ e.pc = s.pc := by
  obtain ⟨hpc, hF'⟩ | ⟨-, hN⟩ := h.control
  · exact ⟨hF'.symm.trans hF, hpc⟩
  · rw [hN] at hF; cases hF

theorem Front.frontInv {s e : State} {fl : Bool} (h : Front s e fl) (hs : PipeInv s) : FrontInv e fl where
  toBackReady := h.backReady hs
  bubbleBound := h.bubble ▸ hs.bubbleBound
  programOrder := hs.programOrder.sublist (inFlight_front_seqs h)
  counted i hi := by
    obtain ⟨j, hj, -, hseq, -⟩ := mem_inFlight_front h i hi
    rw [hseq, h.seqCtr]
    exact hs.counted j hj
  predictions i hi := by
    obtain ⟨j, hj, hinstr, -, hpred⟩ := mem_inFlight_front h i hi
    have hok := hs.predictions j hj
    rwa [PredictionOk, hinstr, hpred, h.predOn_eq]
  fetchAhead f hF := by
    obtain ⟨hF', hpc⟩ := h.of_word f hF
    rw [hpc, h.ifetch_eq]
    exact hs.fetchAhead f hF'
  sampled i hS hbr hon := by
    rw [h.slotS] at hS
    rw [h.predOn_eq] at hon
    rw [h.predBit, (hs.parkedAlone (by simp [hS])).1]
    exact hs.sampled i (.inr hS) hbr hon
  waited i hS hf hb := by
    rw [h.slotS] at hS
    rw [h.fwdOn_eq] at hf
    rw [h.bubble] at hb
    rw [h.slotW]
    exact hs.waited i hS hf hb
  flushedX hfl := by
    rw [h.slotX]
    intro hX
    rw [h.flush_eq, Option.map_eq_none_iff.1 hX] at hfl
    cases hfl
  phaseUnused := h.phase.trans hs.phaseUnused

/-! ## Sub-steps 4 to 8 -/

theorem decodedRec_predictionOk (i : Instr) (a : Word) (e : State) :
    PredictionOk e.predOn (decodedRec i a e) := by
  simp only [PredictionOk, decodedRec, State.predictsTaken, Bool.or_eq_true, Bool.and_eq_true]
  exact ⟨.inl, fun h => h.imp id And.left⟩

theorem Instr.isJal_of_isBranch (i : Instr) (h : i.isBranch = true) : i.isJal = false := by
  have hop : i.opcode = opBranch := of_decide_eq_true h
  simp [Instr.isJal, hop, opBranch, opJal]

theorem decodedRec_sampled (i : Instr) (a : Word) (e : State) (h : i.isBranch = true) (hon : e.predOn = true) :
    (decodedRec i a e).predTaken = e.predBit := by
  simp [decodedRec, State.predictsTaken, h, hon, Instr.isJal_of_isBranch i h]

theorem fetchedAt_eq_some {s : State} {p : Word} {f : Fetched} (h : s.fetchedAt p = some f) :
    s.pcAfterFetch p = f.fpc + 4#32 ∧ s.ifetch f.fpc = some f.word ∧ f.fpc = p := by
  cases hw : s.ifetch p with
  | none => simp [State.fetchedAt, hw] at h
  | some w =>
    simp only [State.fetchedAt, hw, Option.map_some, Option.some.injEq] at h
    subst h
    simp [State.pcAfterFetch, hw]

theorem fetchedAt_eq_none {s : State} {p : Word} (h : s.fetchedAt p = none) :
    s.pcAfterFetch p = p ∧ s.ifetch p = none := by
  have hw : s.ifetch p = none := Option.map_eq_none_iff.1 h
  simp [State.pcAfterFetch, hw]

/-- What each way through sub-steps 4 to 8 leaves, but for the slots F, D and S, pc and the window's newest entry. -/
structure BackFrame (e t : State) : Prop where
  regs : t.regs = e.regs
  bufZ : t.bufZ = e.bufZ
  bufY : t.bufY = e.bufY
  bufM : t.bufM = e.bufM
  slotX : t.slotX = e.slotX
  slotW : t.slotW = e.slotW
  params : t.params = e.params
  imem : t.imem = e.imem
  data : t.data = e.data
  stack : t.stack = e.stack
  ftab : t.ftab = e.ftab
  predBit : t.predBit = e.predBit
  phase : t.phase = e.phase
  w3 : t.win.w3 = e.win.w4
  w2 : t.win.w2 = e.win.w3

theorem BackResult.frame {e t : State} {fl : Bool} (h : BackResult e fl t) : BackFrame e t := by
  cases h <;> constructor <;> rfl

theorem BackFrame.ifetch_eq {e t : State} (h : BackFrame e t) : t.ifetch = e.ifetch := by
  funext a
  simp only [State.ifetch, h.params, h.imem]

theorem BackFrame.fwdOn_eq {e t : State} (h : BackFrame e t) : t.fwdOn = e.fwdOn := by
  simp only [State.fwdOn, h.params]

theorem BackFrame.predOn_eq {e t : State} (h : BackFrame e t) : t.predOn = e.predOn := by
  simp only [State.predOn, h.params]

section
variable {e t : State} {fl : Bool} (h : BackResult e fl t) (he : FrontInv e fl)
include h he

theorem BackResult.bubbleParked (hb : 0 < t.bubble) : t.slotS ≠ none := by
  cases h with
  | parked => simp
  | promoted _ _ _ hb' => exact absurd hb (by simp [hb'])
  | waited _ _ _ hb' => exact he.bubbleParked hb'
  | decodeError | entered | withheld | fetched | completed => exact he.bubbleParked hb

theorem BackResult.bubbleBound : t.bubble ≤ 2 := by
  cases h with
  | parked _ _ n _ _ _ hneed => exact (Nat.sub_le n 1).trans hneed.bound
  | waited => exact (Nat.sub_le _ 1).trans he.bubbleBound
  | decodeError | entered | promoted | withheld | fetched | completed => exact he.bubbleBound

theorem BackResult.newestIsD : t.win.w4 = slotDest t.slotD := by
  cases h with
  | entered | promoted => rfl
  | decodeError | parked | waited | withheld | fetched | completed => simp [slotDest, Window.shift, he.emptyD]

/-- The instructions in flight are those of e, and after a decode the new one behind them. -/
theorem BackResult.inFlight_eq :
    (inFlight t = inFlight e ∧ t.seqCtr = e.seqCtr) ∨
      ∃ f i, inFlight t = inFlight e ++ [decodedRec i f e] ∧ t.seqCtr = e.seqCtr + 1 := by
  have hD := he.emptyD
  cases h with
  | parked f i _ _ hF | entered f i _ hF => exact .inr ⟨f.fpc, i, by simp [inFlight, hD, he.slotS_of_word hF], rfl⟩
  | promoted i _ hS => exact .inl ⟨by simp [inFlight, hD, hS], rfl⟩
  | decodeError | waited | withheld | fetched | completed => exact .inl ⟨rfl, rfl⟩

theorem BackResult.programOrder : ((inFlight t).map Rec.seq).Pairwise (· < ·) := by
  obtain ⟨hin, -⟩ | ⟨f, i, hin, -⟩ := h.inFlight_eq he <;> rw [hin]
  · exact he.programOrder
  · rw [List.map_append, List.pairwise_append]
    refine ⟨he.programOrder, List.pairwise_singleton _ _, fun a ha b hb => ?_⟩
    obtain ⟨j, hj, rfl⟩ := List.mem_map.1 ha
    obtain rfl : b = e.seqCtr + 1 := by simpa [decodedRec] using hb
    exact Nat.lt_succ_of_le (he.counted j hj)

theorem BackResult.counted (i : Rec) (hi : i ∈ inFlight t) : i.seq ≤ t.seqCtr := by
  obtain ⟨hin, hseq⟩ | ⟨f, j, hin, hseq⟩ := h.inFlight_eq he <;> rw [hin] at hi <;> rw [hseq]
  · exact he.counted i hi
  · obtain hi | hi := List.mem_append.1 hi
    · exact (he.counted i hi).trans (Nat.le_succ _)
    · rw [List.mem_singleton.1 hi]; exact Nat.le_refl _

theorem BackResult.predictions (i : Rec) (hi : i ∈ inFlight t) : PredictionOk t.predOn i := by
  rw [h.frame.predOn_eq]
  obtain ⟨hin, -⟩ | ⟨f, j, hin, -⟩ := h.inFlight_eq he <;> rw [hin] at hi
  · exact he.predictions i hi
  · obtain hi | hi := List.mem_append.1 hi
    · exact he.predictions i hi
    · rw [List.mem_singleton.1 hi]; exact decodedRec_predictionOk j f e

theorem BackResult.fetchAhead (f : Fetched) (hF : t.slotF = some f) :
    t.pc = f.fpc + 4#32 ∧ t.ifetch f.fpc = some f.word := by
  rw [h.frame.ifetch_eq]
  cases h with
  | decodeError | parked => cases hF
  | waited _ _ hS => rw [(he.parkedAlone (by simp [hS])).1] at hF; cases hF
  | withheld _ _ hF' => rw [hF'] at hF; cases hF
  | completed _ _ hd => rw [((State.drained_iff e).1 hd).1] at hF; cases hF
  | entered | promoted | fetched =>
    obtain ⟨hpc, hw, -⟩ := fetchedAt_eq_some hF
    exact ⟨hpc, hw⟩

theorem BackResult.sampled (i : Rec) (hi : t.slotD = some i ∨ t.slotS = some i)
    (hbr : i.instr.isBranch = true) (hon : t.predOn = true) : i.predTaken = t.predBit := by
  rw [h.frame.predOn_eq] at hon
  rw [h.frame.predBit]
  cases h with
  | parked _ _ =>
    obtain hi | hi := hi
    · cases he.emptyD.symm.trans hi
    · cases hi; exact decodedRec_sampled _ _ e hbr hon
  | entered _ _ _ hF =>
    obtain hi | hi := hi
    · cases hi; exact decodedRec_sampled _ _ e hbr hon
    · rw [(he.parkedAlone (by rw [hi]; simp)).1] at hF; cases hF
  | promoted _ _ hS =>
    obtain hi | hi := hi
    · cases hi; exact he.sampled _ hS hbr hon
    · cases hi
  | decodeError | waited | withheld | fetched | completed =>
    exact hi.elim (fun hD => by cases he.emptyD.symm.trans hD) fun hS => he.sampled i hS hbr hon

/-- An instruction parked for one more step, or past its last, has no producer in X. -/
theorem BackResult.waited_spec (i : Rec) (hS : t.slotS = some i) (hf : t.fwdOn = false)
    (hb : t.bubble = 0) : ¬DependsOnSlot i.instr t.slotX := by
  rw [h.frame.fwdOn_eq] at hf
  rw [h.frame.slotX]
  have hold : e.slotS = some i → ¬DependsOnSlot i.instr e.slotX := fun hS => by
    rw [(he.parkedAlone (by simp [hS])).2]
    simp [DependsOnSlot, slotDest]
  cases h with
  | parked f j n _ _ _ hneed hpos =>
    cases hS
    intro hdep
    have htwo := (hneed.plain_two hf).2 hdep
    have hone : n - 1 = 0 := hb
    omega
  | promoted => cases hS
  | decodeError | entered | waited | withheld | fetched | completed => exact hold hS

section
variable (ht : t.halted = false)
include ht

theorem BackResult.parkedAlone (hS : t.slotS ≠ none) : t.slotD = none ∧ t.slotF = none := by
  cases h with
  | decodeError _ _ => simp [State.halted] at ht
  | parked => exact ⟨he.emptyD, rfl⟩
  | entered _ _ _ hF => rw [(he.parkedAlone hS).1] at hF; cases hF
  | waited => exact ⟨he.emptyD, (he.parkedAlone hS).1⟩
  | promoted => exact absurd rfl hS
  | withheld _ _ _ hS' | fetched _ _ _ hS' => exact absurd hS' hS
  | completed => simp [State.halted] at ht

/-- With F and S empty and X empty the step's fetch was attempted and found nothing. -/
theorem BackResult.fetchEnded (hF : t.slotF = none) (hS : t.slotS = none) (hX : t.slotX = none) :
    t.ifetch t.pc = none := by
  rw [h.frame.ifetch_eq]
  have hnone : ∀ p, e.fetchedAt p = none → e.ifetch (e.pcAfterFetch p) = none := fun p hp => by
    obtain ⟨hpc, hw⟩ := fetchedAt_eq_none hp
    rw [hpc, hw]
  cases h with
  | decodeError => simp [State.halted] at ht
  | parked => cases hS
  | waited _ _ hS' => rw [hS'] at hS; cases hS
  | withheld _ hfl => exact absurd hX (he.flushedX hfl)
  | entered | promoted | fetched => exact hnone _ hF
  | completed _ _ _ hw => exact hw

theorem BackResult.pipeInv : PipeInv t where
  ftabEmpty := h.frame.ftab.trans he.ftabEmpty
  parkedAlone := h.parkedAlone he ht
  bubbleParked := h.bubbleParked he
  bubbleBound := h.bubbleBound he
  newestIsD := h.newestIsD he
  index3IsX := by rw [h.frame.w3, h.frame.slotX, he.newestIsX]
  index2IsW := by rw [h.frame.w2, h.frame.slotW, he.index3IsW]
  programOrder := h.programOrder he
  counted := h.counted he
  predictions := h.predictions he
  fetchEnded hF hS hX _ := h.fetchEnded he ht hF hS hX
  fetchAhead := h.fetchAhead he
  sampled := h.sampled he
  waited := h.waited_spec he
  phaseUnused := h.frame.phase.trans he.phaseUnused

end

end

theorem StepResult.pipeInv {s t : State} (h : StepResult s t) (hs : PipeInv s) (ht : t.halted = false) :
    PipeInv t := by
  cases h with
  | lastWriteback => simp [State.halted] at ht
  | through e fl t front ready back => exact back.pipeInv (front.frontInv hs) ht

end Sys2Proof.Machine
end

section
/-! PROOFS. The sequential run: one instruction run alone after another, with what each leaves in the registers and in
pc (R203, R207, R222 to R226). It is what both modes are compared with (R228). -/

namespace Sys2Proof.Machine

open Sys2Proof.Safety Sys2Proof.Claims

/-! ## The effect of one instruction -/

theorem memoryStage_bufY_eq_bufZ (r : Rec) (s : State) (hload : r.instr.isLoad = false)
    (hdest : r.instr.effDest ≠ none) : (memoryStage r s).bufY = s.bufZ := by
  obtain ⟨i, a, q, p, tk⟩ := r
  cases i
  case lb | lh | lw | ld => cases hload
  case sb | sh | sw | sd => exact absurd rfl hdest
  all_goals rfl

section
variable (i : Instr) (v : State)

theorem execResult_params : (execResult i v).params = v.params := by
  simp [execResult, aloneAccessed, aloneExecuted]
theorem execResult_imem : (execResult i v).imem = v.imem := by
  simp [execResult, aloneAccessed, aloneExecuted]
theorem execResult_seqCtr : (execResult i v).seqCtr = v.seqCtr + 1 := by
  simp [execResult, aloneAccessed, aloneExecuted]

/-- A machine about to fetch with nothing in flight is so again after the instruction. -/
theorem execResult_readyToFetch (h : ReadyToFetch v) : ReadyToFetch (execResult i v) := by
  simpa [ReadyToFetch, execResult, aloneAccessed, aloneExecuted] using h

theorem execResult_slot0 : (execResult i v).regs[0] = v.regs[0] := by
  simp [execResult, aloneAccessed, aloneExecuted]

/-- The effective destination gets Y, every other register keeps its value (R203). -/
theorem execResult_readReg (r : Reg) : (execResult i v).readReg r =
    if i.effDest = some r then (execResult i v).bufY else v.readReg r := by
  simp [execResult, aloneAccessed, aloneExecuted, newRec, writeback_readReg]

/-- Of the instructions that write a register only loads write another value than Z (R201). -/
theorem execResult_bufY_eq_bufZ (hload : i.isLoad = false) (hdest : i.effDest ≠ none) :
    (execResult i v).bufY = (execResult i v).bufZ := by
  rw [execResult_bufY, execResult_bufZ, aloneAccessed,
    memoryStage_bufY_eq_bufZ _ _ (by simpa using hload) (by simpa using hdest)]
  simp

/-- pc after the instruction: a jump's target, a taken branch's target, else the next address (R224, R226). -/
theorem execResult_pc : (execResult i v).pc =
    if i.isJump = true then (execResult i v).bufM
    else if i.isBranch = true ∧ (aloneExecuted i v).1.taken = some true then v.pc + i.imm
    else v.pc + 4#32 := by
  have hbr : (branchAtExecute (aloneExecuted i v).1 (aloneExecuted i v).2).pc =
      if i.isBranch = true ∧ (aloneExecuted i v).1.taken = some true then v.pc + i.imm
      else v.pc + 4#32 := by
    unfold branchAtExecute
    rw [aloneExecuted_instr]
    simp only [Bool.and_eq_true, beq_iff_eq]
    split
    · simp [Rec.target]
    · simp [aloneExecuted]
  rw [← hbr, execResult_bufM]
  unfold execResult jumpAtWriteback
  rw [aloneExecuted_instr]
  split
  · simp [aloneAccessed]
  · simp [aloneAccessed]

end

/-! ## What comes next -/

/-- The instruction a word spells (R100). -/
def decodedInstr (w : Word) : Option Instr :=
  match decode w with
  | .ok i => some i
  | .unknownOpcode => none
  | .unknownFunct => none

/-- The instruction at pc, where the fetch answers a word and the word decodes. -/
def State.nextInstr (v : State) : Option Instr := (v.ifetch v.pc).bind decodedInstr

theorem decodedInstr_eq_some_iff (w : Word) (i : Instr) : decodedInstr w = some i ↔ decode w = .ok i := by
  unfold decodedInstr
  cases decode w <;> simp

theorem State.nextInstr_eq_some_iff (v : State) (i : Instr) :
    v.nextInstr = some i ↔ ∃ w, v.ifetch v.pc = some w ∧ decode w = .ok i := by
  simp [State.nextInstr, Option.bind_eq_some_iff, decodedInstr_eq_some_iff]

theorem State.nextInstr_of_word {v : State} {w : Word} {i : Instr} (hw : v.ifetch v.pc = some w)
    (hd : decode w = .ok i) : v.nextInstr = some i := (v.nextInstr_eq_some_iff i).2 ⟨w, hw, hd⟩

theorem State.nextInstr_of_nothing {v : State} (hw : v.ifetch v.pc = none) : v.nextInstr = none := by
  simp [State.nextInstr, hw]

theorem State.nextInstr_of_badWord {v : State} {w : Word} {c : ErrCode} (hw : v.ifetch v.pc = some w)
    (hc : decodeError w = some c) : v.nextInstr = none := by
  obtain ⟨i, -, hnone⟩ | ⟨c', -, ⟨hd, -⟩ | ⟨hd, -⟩⟩ := decode_cases w
  · rw [hnone] at hc; cases hc
  · simp [State.nextInstr, hw, decodedInstr, hd]
  · simp [State.nextInstr, hw, decodedInstr, hd]

/-- Where there is no next instruction the fetch finds nothing, or a word that does not decode. -/
theorem State.nextInstr_eq_none_cases (v : State) (h : v.nextInstr = none) :
    v.ifetch v.pc = none ∨ ∃ w c, v.ifetch v.pc = some w ∧ decodeError w = some c := by
  cases hw : v.ifetch v.pc with
  | none => exact .inl rfl
  | some w =>
    obtain ⟨i, hd, -⟩ | ⟨c, hc, -⟩ := decode_cases w
    · rw [State.nextInstr_of_word hw hd] at h; cases h
    · exact .inr ⟨w, c, rfl, hc⟩

/-! ## The run -/

/-- The state after k instructions from v0, each run alone; where there is no next instruction the run stands
still. -/
def sequential (v0 : State) (k : Nat) : State :=
  match k with
  | 0 => v0
  | k + 1 =>
    match (sequential v0 k).nextInstr with
    | some i => execResult i (sequential v0 k)
    | none => sequential v0 k

section
variable (v0 : State)

theorem sequential_succ {k : Nat} {i : Instr} (h : (sequential v0 k).nextInstr = some i) :
    sequential v0 (k + 1) = execResult i (sequential v0 k) := by
  simp [sequential, h]

theorem sequential_succ_stuck {k : Nat} (h : (sequential v0 k).nextInstr = none) :
    sequential v0 (k + 1) = sequential v0 k := by
  simp [sequential, h]

/-- What every instruction keeps, the run keeps. -/
theorem sequential_induction {P : State → Prop} (h0 : P v0) (hstep : ∀ i v, P v → P (execResult i v))
    (k : Nat) : P (sequential v0 k) := by
  induction k with
  | zero => exact h0
  | succ k ih =>
    cases h : (sequential v0 k).nextInstr with
    | some i => rw [sequential_succ v0 h]; exact hstep i _ ih
    | none => rw [sequential_succ_stuck v0 h]; exact ih

theorem sequential_params (k : Nat) : (sequential v0 k).params = v0.params :=
  sequential_induction v0 (P := fun v => v.params = v0.params) rfl
    (fun i v h => (execResult_params i v).trans h) k

theorem sequential_imem (k : Nat) : (sequential v0 k).imem = v0.imem :=
  sequential_induction v0 (P := fun v => v.imem = v0.imem) rfl
    (fun i v h => (execResult_imem i v).trans h) k

theorem sequential_ifetch (k : Nat) : (sequential v0 k).ifetch = v0.ifetch := by
  funext a
  simp only [State.ifetch, sequential_params, sequential_imem]

theorem sequential_readyToFetch (h : ReadyToFetch v0) (k : Nat) : ReadyToFetch (sequential v0 k) :=
  sequential_induction v0 h execResult_readyToFetch k

/-- The run has not stood still before the k-th instruction. -/
def Proceeds (k : Nat) : Prop := ∀ j < k, (sequential v0 j).nextInstr ≠ none

theorem proceeds_succ {k : Nat} {i : Instr} (h : Proceeds v0 k) (hi : (sequential v0 k).nextInstr = some i) :
    Proceeds v0 (k + 1) := by
  intro j hj
  obtain hj | rfl := Nat.lt_succ_iff_lt_or_eq.1 hj
  · exact h j hj
  · simp [hi]

/-- There is one place at most where the run can stand still. -/
theorem stuck_unique {k n : Nat} (hk : Proceeds v0 k) (hn : Proceeds v0 n)
    (hk' : (sequential v0 k).nextInstr = none) (hn' : (sequential v0 n).nextInstr = none) : k = n := by
  obtain h | h | h := Nat.lt_trichotomy k n
  · exact absurd hk' (hn k h)
  · exact h
  · exact absurd hn' (hk n h)

theorem sequential_seqCtr {k : Nat} (h : Proceeds v0 k) : (sequential v0 k).seqCtr = v0.seqCtr + k := by
  induction k with
  | zero => rfl
  | succ k ih =>
    obtain ⟨i, hi⟩ := Option.ne_none_iff_exists'.1 (h k (Nat.lt_succ_self k))
    rw [sequential_succ v0 hi, execResult_seqCtr, ih fun j hj => h j (hj.trans (Nat.lt_succ_self k))]
    omega

end

end Sys2Proof.Machine
end

section
/-! PROOFS. The pipelined machine tracks the sequential run: its slots hold consecutive instructions of it, and its
registers, bytes and buffers are those of the run where the slot's stage stands (R201 to R218, R228). -/

namespace Sys2Proof.Machine

open Sys2Proof.Safety Sys2Proof.Claims

/-! ## Where a state stands in the run -/

/-- The instruction in flight is the next one of v. -/
def FetchedAt (v : State) (i : Rec) : Prop := v.nextInstr = some i.instr ∧ i.fpc = v.pc

/-- Instructions through their memory stage, where c have retired: the place of X's occupant. -/
def accessedCount (s : State) (c : Nat) : Nat := c + held s.slotW

/-- Instructions through their execute stage: the place of D's or S's occupant. -/
def executedCount (s : State) (c : Nat) : Nat := accessedCount s c + held s.slotX

/-- Instructions decoded: the place of the word to be decoded next. -/
def decodedCount (s : State) (c : Nat) : Nat := executedCount s c + held s.slotD + held s.slotS

/-- s has retired the first c instructions of the run from v0, and holds the next ones in W, X and D or S. -/
structure Tracks (v0 s : State) (c : Nat) : Prop where
  meaning : SameMeaning s.params v0.params
  imem : s.imem = v0.imem
  proceeds : Proceeds v0 (decodedCount s c)
  seqCtr : s.seqCtr = v0.seqCtr + decodedCount s c
  regs : s.regs = (sequential v0 c).regs
  data : s.data = (sequential v0 (accessedCount s c)).data
  stack : s.stack = (sequential v0 (accessedCount s c)).stack
  inW : ∀ i, s.slotW = some i →
    FetchedAt (sequential v0 c) i ∧ s.bufY = (sequential v0 (c + 1)).bufY
  inX : ∀ i, s.slotX = some i → FetchedAt (sequential v0 (accessedCount s c)) i ∧
    s.bufZ = (sequential v0 (accessedCount s c + 1)).bufZ ∧
    (i.instr.isStore = true → s.bufM = (sequential v0 (accessedCount s c + 1)).bufM)
  inD : ∀ i, s.slotD = some i → FetchedAt (sequential v0 (executedCount s c)) i ∧
    s.bufA = (sequential v0 (executedCount s c)).operandA i.instr ∧
    s.bufB = (sequential v0 (executedCount s c)).operandB i.instr
  inS : ∀ i, s.slotS = some i → FetchedAt (sequential v0 (executedCount s c)) i

/-- The address of the next word to decode: F's, or the one about to be fetched. -/
def State.nextDecode (s : State) : Word :=
  match s.slotF with
  | some f => f.fpc
  | none => s.pc

/-- The address that decode assumed to follow the instruction (R281). -/
def Rec.predictedPc (i : Rec) : Word := if i.predTaken = true then i.target else i.next

/-- The fetch runs ahead on the path that the instruction in D or S predicts, else on the path of the run. -/
structure OnPath (v0 s : State) (c : Nat) : Prop where
  resolved : s.slotD = none → s.slotS = none →
    s.nextDecode = (sequential v0 (decodedCount s c)).pc
  predicted : ∀ i, s.slotD = some i ∨ s.slotS = some i → s.nextDecode = i.predictedPc

@[simp] theorem held_none : held none = 0 := rfl
@[simp] theorem held_some (i : Rec) : held (some i) = 1 := rfl
@[simp] theorem held_map (r : Option Rec) (f : Rec → Rec) : held (r.map f) = held r := by
  cases r <;> rfl

theorem regs_ext {s t : State} (h : ∀ r, s.readReg r = t.readReg r) (h0 : s.regs[0] = t.regs[0]) :
    s.regs = t.regs := by
  refine Vector.ext fun n hn => ?_
  obtain rfl | hpos := Nat.eq_zero_or_pos n
  · exact h0
  · have hr := h (BitVec.ofNat 5 n)
    have hne : BitVec.ofNat 5 n ≠ 0#5 := fun hz => by
      have := congrArg BitVec.toNat hz
      simp at this
      omega
    simpa [State.readReg, hne, Nat.mod_eq_of_lt hn] using hr

section
variable {v0 s : State} {c : Nat} (h : Tracks v0 s c)
include h

theorem Tracks.ifetch_eq : s.ifetch = v0.ifetch := by
  funext a
  simp only [State.ifetch, h.meaning.termAddr, h.imem]

theorem Tracks.meaning_at (k : Nat) : SameMeaning s.params (sequential v0 k).params := by
  rw [sequential_params]
  exact h.meaning

/-- What the instruction in W leaves behind (R203). -/
theorem Tracks.regs_of_writeback {t : State}
    (hr : ∀ r, t.readReg r = if slotDest s.slotW = some r then s.bufY else s.readReg r)
    (h0 : t.regs[0] = s.regs[0]) : t.regs = (sequential v0 (c + held s.slotW)).regs := by
  cases hW : s.slotW with
  | none =>
    rw [held_none, Nat.add_zero, ← h.regs]
    exact regs_ext (fun r => by rw [hr, hW]; rfl) h0
  | some i =>
    obtain ⟨⟨hnext, -⟩, hY⟩ := h.inW i hW
    rw [sequential_succ v0 hnext] at hY
    rw [held_some, sequential_succ v0 hnext]
    refine regs_ext (fun r => ?_) ?_
    · rw [hr, hW, execResult_readReg, ← hY, State.readReg_congr h.regs r]
      rfl
    · rw [h0, execResult_slot0, h.regs]

/-- The memory stage of the instruction in X (R205). -/
theorem Tracks.memoryStage_eq (i : Rec) (hX : s.slotX = some i) :
    SameAccess (memoryStage i s) (sequential v0 (accessedCount s c + 1)) := by
  obtain ⟨⟨hnext, -⟩, hZ, hM⟩ := h.inX i hX
  rw [sequential_succ v0 hnext] at hZ hM ⊢
  exact memoryStage_eq_execResult i s _ (h.meaning_at _) h.data.symm h.stack.symm hZ.symm
    fun hst => (hM hst).symm

/-- The execute stage of the instruction in D (R206). -/
theorem Tracks.executeStage_eq (i : Rec) (hD : s.slotD = some i) :
    (executeStage i s).2.bufZ = (sequential v0 (executedCount s c + 1)).bufZ ∧
      (i.instr.isStore = true ∨ i.instr.isJump = true →
        (executeStage i s).2.bufM = (sequential v0 (executedCount s c + 1)).bufM) ∧
      (i.instr.isBranch = true → (executeStage i s).1.taken =
        (aloneExecuted i.instr (sequential v0 (executedCount s c))).1.taken) := by
  obtain ⟨⟨hnext, hpc⟩, hA, hB⟩ := h.inD i hD
  rw [sequential_succ v0 hnext]
  exact executeStage_eq_execResult i s _ hpc.symm (h.meaning_at _) hA.symm hB.symm

end

/-! ## Sub-steps 1 to 3 -/

section
variable {v0 s e : State} {fl : Bool} {c : Nat} (hfront : Front s e fl)
include hfront

theorem Front.accessedCount_eq : accessedCount e (c + held s.slotW) = executedCount s c := by
  simp only [accessedCount, executedCount, hfront.slotW]

theorem Front.executedCount_eq :
    executedCount e (c + held s.slotW) = executedCount s c + held s.slotD := by
  rw [executedCount, hfront.accessedCount_eq, hfront.slotX, held_map]

theorem Front.decodedCount_eq : decodedCount e (c + held s.slotW) = decodedCount s c := by
  rw [decodedCount, hfront.executedCount_eq, hfront.slotD, hfront.slotS, held_none, Nat.add_zero,
    decodedCount]

/-- Sub-steps 1 to 3 retire W, and move X to W and D to X with what their stages compute. -/
theorem Front.tracks (hs : PipeInv s) (h : Tracks v0 s c) : Tracks v0 e (c + held s.slotW) where
  meaning := hfront.params ▸ h.meaning
  imem := hfront.imem.trans h.imem
  proceeds := by rw [hfront.decodedCount_eq]; exact h.proceeds
  seqCtr := by rw [hfront.decodedCount_eq, hfront.seqCtr, h.seqCtr]
  regs := h.regs_of_writeback hfront.regs hfront.slot0
  data := by
    rw [hfront.accessedCount_eq, hfront.data, executedCount]
    cases hX : s.slotX with
    | none => exact h.data
    | some i => exact (h.memoryStage_eq i hX).2.1
  stack := by
    rw [hfront.accessedCount_eq, hfront.stack, executedCount]
    cases hX : s.slotX with
    | none => exact h.stack
    | some i => exact (h.memoryStage_eq i hX).2.2
  inW i hi := by
    rw [hfront.slotW] at hi
    rw [hfront.bufY, hi]
    exact ⟨(h.inX i hi).1, (h.memoryStage_eq i hi).1⟩
  inX i hi := by
    rw [hfront.slotX, Option.map_eq_some_iff] at hi
    obtain ⟨j, hD, rfl⟩ := hi
    obtain ⟨hZ, hM, -⟩ := h.executeStage_eq j hD
    obtain ⟨hnext, hpc⟩ := (h.inD j hD).1
    rw [hfront.accessedCount_eq, hfront.bufZ, hfront.bufM, hD]
    exact ⟨⟨by simpa using hnext, by simpa using hpc⟩, hZ, by simpa using fun hst => hM (.inl hst)⟩
  inD i hi := by rw [hfront.slotD] at hi; cases hi
  inS i hi := by
    rw [hfront.slotS] at hi
    rw [hfront.executedCount_eq, (hs.parkedAlone (by simp [hi])).1]
    exact h.inS i hi

end

/-! ## The path -/

theorem Instr.isJump_eq (i : Instr) : i.isJump = (i.isJal || i.isJalr) := rfl

theorem Instr.isJump_of_isBranch (i : Instr) (h : i.isBranch = true) : i.isJump = false := by
  have hop : i.opcode = opBranch := of_decide_eq_true h
  simp [Instr.isJump, hop, opBranch, opJal, opJalr]

/-- jal's target: its operand B is the immediate (R182, R201). -/
theorem executeStage_jal_bufM (i : Rec) (s v : State) (hj : i.instr.isJal = true)
    (hB : s.bufB = v.operandB i.instr) : (executeStage i s).2.bufM = i.target := by
  obtain ⟨j, a, q, p, tk⟩ := i
  cases j
  case jal rd imm => exact congrArg (a + ·) hB
  all_goals cases hj

section
variable {v0 s : State} {c : Nat} (h : Tracks v0 s c) (i : Rec) (hD : s.slotD = some i)
include h hD

/-- A branch that was mispredicted resolves to the next address of the run (R207, R285). -/
theorem Tracks.pc_of_mispredicted (hm : (executeStage i s).1.mispredicted = true) :
    (executeStage i s).1.outcomePc = (sequential v0 (executedCount s c + 1)).pc := by
  obtain ⟨⟨hnext, hpc⟩, -, -⟩ := h.inD i hD
  have hbr : i.instr.isBranch = true := by
    simp only [Rec.mispredicted, executeStage_rec_instr, Bool.and_eq_true] at hm
    exact hm.1
  obtain ⟨-, -, htaken⟩ := h.executeStage_eq i hD
  rw [sequential_succ v0 hnext, execResult_pc, Instr.isJump_of_isBranch _ hbr, ← htaken hbr, ← hpc]
  simp [Rec.outcomePc, Rec.target, Rec.next, hbr]

/-- A jalr resolves to the next address of the run (R288). -/
theorem Tracks.pc_of_jalr (hj : i.instr.isJalr = true) :
    (executeStage i s).2.bufM = (sequential v0 (executedCount s c + 1)).pc := by
  have hjump : i.instr.isJump = true := by rw [Instr.isJump_eq, hj, Bool.or_true]
  obtain ⟨-, hM, -⟩ := h.executeStage_eq i hD
  rw [hM (.inr hjump), sequential_succ v0 (h.inD i hD).1.1, execResult_pc, hjump, if_pos rfl]

/-- Everything else was decoded onto the path of the run: a jal to its target, a branch to its outcome (R281). -/
theorem Tracks.pc_of_predicted (hok : PredictionOk s.predOn i)
    (hm : (executeStage i s).1.mispredicted = false) (hj : i.instr.isJalr = false) :
    i.predictedPc = (sequential v0 (executedCount s c + 1)).pc := by
  obtain ⟨⟨hnext, hpc⟩, -, hB⟩ := h.inD i hD
  obtain ⟨-, hM, htaken⟩ := h.executeStage_eq i hD
  obtain ⟨hjal, hpred⟩ := hok
  cases hjl : i.instr.isJal with
  | true =>
    have hjump : i.instr.isJump = true := by rw [Instr.isJump_eq, hjl, Bool.true_or]
    have hpcM : (sequential v0 (executedCount s c + 1)).pc =
        (sequential v0 (executedCount s c + 1)).bufM := by
      rw [sequential_succ v0 hnext, execResult_pc, hjump, if_pos rfl]
    rw [hpcM, ← hM (.inr hjump), executeStage_jal_bufM i s _ hjl hB, Rec.predictedPc, if_pos (hjal hjl)]
  | false =>
    have hjump : i.instr.isJump = false := by rw [Instr.isJump_eq, hjl, hj]; rfl
    rw [sequential_succ v0 hnext, execResult_pc, hjump, ← hpc, if_neg (by simp)]
    cases hbr : i.instr.isBranch with
    | true =>
      have htk : (executeStage i s).1.taken = some i.predTaken := by
        simpa [Rec.mispredicted, hbr] using hm
      simp [Rec.predictedPc, Rec.target, Rec.next, ← htaken hbr, htk]
    | false =>
      have hnot : i.predTaken = false := by
        cases hp : i.predTaken with
        | false => rfl
        | true => rcases hpred hp with h | ⟨h, -⟩ <;> simp_all
      simp [Rec.predictedPc, Rec.next, hnot]

end

theorem Rec.mem_inFlight_of_slotD {s : State} {i : Rec} (h : s.slotD = some i) : i ∈ inFlight s := by
  simp [inFlight, h]

/-- Sub-steps 1 to 3 leave the fetch on the path of the run once D is resolved. -/
theorem Front.onPath {v0 s e : State} {fl : Bool} {c : Nat} (hfront : Front s e fl) (hs : PipeInv s)
    (h : Tracks v0 s c) (hp : OnPath v0 s c) : OnPath v0 e (c + held s.slotW) := by
  cases hD : s.slotD with
  | none =>
    obtain ⟨-, hpc, hF⟩ := hfront.of_emptyD hD
    have hnd : e.nextDecode = s.nextDecode := by simp only [State.nextDecode, hF, hpc]
    refine ⟨fun _ hS => ?_, fun i hi => ?_⟩
    · rw [hnd, hfront.decodedCount_eq]
      exact hp.resolved hD (hfront.slotS.symm.trans hS)
    · rw [hnd]
      rw [hfront.slotD, hfront.slotS] at hi
      exact hp.predicted i (.inr (hi.resolve_left (by simp)))
  | some i =>
    have hS : s.slotS = none := by
      by_contra hS
      rw [(hs.parkedAlone hS).1] at hD
      cases hD
    have hcount : decodedCount s c = executedCount s c + 1 := by
      simp [decodedCount, hD, hS]
    refine ⟨fun _ _ => ?_, fun j hj => ?_⟩
    · rw [hfront.decodedCount_eq, hcount]
      have hpc := hfront.pc
      have hfl := hfront.flush_eq
      have hF := hfront.slotF
      simp only [hD, Option.elim_some] at hpc hfl
      cases hm : (executeStage i s).1.mispredicted with
      | true =>
        simp only [hm, if_true, Bool.true_or] at hpc hfl
        rw [State.nextDecode, hF, if_pos hfl]
        exact hpc.trans (h.pc_of_mispredicted i hD hm)
      | false =>
        cases hj : i.instr.isJalr with
        | true =>
          simp only [hm, hj, if_true, Bool.or_true] at hpc hfl
          rw [State.nextDecode, hF, if_pos hfl]
          exact hpc.trans (h.pc_of_jalr i hD hj)
        | false =>
          simp only [hm, hj, Bool.or_false] at hpc hfl
          have hnd : e.nextDecode = s.nextDecode := by
            simp only [State.nextDecode, hF, hfl, hpc, Bool.false_eq_true, if_false]
          rw [hnd, hp.predicted i (.inl hD)]
          exact h.pc_of_predicted i hD (hs.predictions i (Rec.mem_inFlight_of_slotD hD)) hm hj
    · rw [hfront.slotD, hfront.slotS, hS] at hj
      simp at hj

end Sys2Proof.Machine
end

section
/-! PROOFS. The operands that D is given are those of the sequential run (R210, R217, R258 to R261), and sub-steps 4 to
8 keep tracking it (R208 to R218). -/

namespace Sys2Proof.Machine

open Sys2Proof.Safety Sys2Proof.Claims

/-! ## Operands -/

section
variable {v0 e : State} {c : Nat} (h : Tracks v0 e c)
include h

/-- A register once W has retired: Y, or the register file. -/
theorem Tracks.readReg_accessed (r : Reg) : (sequential v0 (accessedCount e c)).readReg r =
    if slotDest e.slotW = some r then e.bufY else e.readReg r := by
  rw [accessedCount]
  cases hW : e.slotW with
  | none => exact (State.readReg_congr h.regs r).symm
  | some i =>
    obtain ⟨⟨hnext, -⟩, hY⟩ := h.inW i hW
    rw [sequential_succ v0 hnext] at hY
    rw [held_some, sequential_succ v0 hnext, execResult_readReg, ← hY, State.readReg_congr h.regs r]
    rfl

/-- A register once W and X have retired, where X is no load that writes it: Z, else Y, else the register file. -/
theorem Tracks.readReg_executed (r : Reg)
    (hload : ∀ p, e.slotX = some p → p.instr.effDest = some r → p.instr.isLoad = false) :
    (sequential v0 (executedCount e c)).readReg r =
      if slotDest e.slotX = some r then e.bufZ
      else if slotDest e.slotW = some r then e.bufY else e.readReg r := by
  rw [executedCount, ← h.readReg_accessed r]
  cases hX : e.slotX with
  | none => rfl
  | some p =>
    obtain ⟨⟨hnext, -⟩, hZ, -⟩ := h.inX p hX
    rw [sequential_succ v0 hnext] at hZ
    rw [held_some, sequential_succ v0 hnext, execResult_readReg]
    by_cases hd : p.instr.effDest = some r
    · rw [if_pos hd, if_pos (show slotDest (some p) = some r from hd), hZ]
      exact execResult_bufY_eq_bufZ _ _ (hload p hX hd) (by simp [hd])
    · rw [if_neg hd, if_neg (show slotDest (some p) ≠ some r from hd)]

end

/-- i can take its operands now: without forwarding nothing in X or W writes one, with it no load in X does (R252,
R255, R258). -/
structure OperandsReady (e : State) (i : Instr) : Prop where
  plain : e.fwdOn = false → ¬DependsOnSlot i e.slotX ∧ ¬DependsOnSlot i e.slotW
  forward : e.fwdOn = true → DependsOnSlot i e.slotX → ∀ p, e.slotX = some p → p.instr.isLoad = false

theorem StallNeed.operandsReady {e : State} {i : Instr} (h : StallNeed e i 0) : OperandsReady e i where
  plain hf := (h.plain_zero hf).1 rfl
  forward hf hdep p hX := by
    cases hl : p.instr.isLoad with
    | false => rfl
    | true =>
      have hone := (h.forward_one hf).2 ⟨hdep, fun q hq => by rw [hX] at hq; cases hq; exact hl⟩
      cases hone

theorem operandsReady_of_parked {e : State} {fl : Bool} (he : FrontInv e fl) {i : Rec}
    (hS : e.slotS = some i) (hb : e.bubble = 0) : OperandsReady e i.instr := by
  have hX := (he.parkedAlone (by simp [hS])).2
  have hdep : ¬DependsOnSlot i.instr e.slotX := by simp [DependsOnSlot, hX, slotDest]
  exact ⟨fun hf => ⟨hdep, he.waited i hS hf hb⟩, fun _ h => absurd h hdep⟩

section
variable {v0 e : State} {c : Nat} (h : Tracks v0 e c) {i : Instr} (hr : OperandsReady e i)
include h hr

/-- A source register, read now and made current, has its value in the run. -/
theorem Tracks.currentOperand_readSrc (src : Option Reg) (hsrc : i.rs1 = src ∨ i.rs2 = src) :
    currentOperand e src (e.readSrc src) = (sequential v0 (executedCount e c)).readSrc src := by
  cases src with
  | none => simp [currentOperand, forwarded, State.readSrc]
  | some r =>
    by_cases h0 : r = 0#5
    · subst h0
      simp [currentOperand, forwarded, State.readSrc]
    · have hreads : Reads i r := ⟨h0, hsrc⟩
      cases hf : e.fwdOn with
      | false =>
        obtain ⟨hX, hW⟩ := hr.plain hf
        have hX' : slotDest e.slotX ≠ some r := fun hd => hX ⟨r, hreads, hd⟩
        have hW' : slotDest e.slotW ≠ some r := fun hd => hW ⟨r, hreads, hd⟩
        have hreg := h.readReg_executed r fun p hX hd => absurd (by rw [hX]; exact hd) hX'
        rw [if_neg hX', if_neg hW'] at hreg
        simp [currentOperand, hf, State.readSrc, hreg]
      | true =>
        have hreg := h.readReg_executed r fun p hX hd =>
          hr.forward hf ⟨r, hreads, by rw [hX]; exact hd⟩ p hX
        simp [currentOperand, hf, forwarded, State.readSrc, h0, hreg]

theorem Tracks.currentOperand_A :
    currentOperand e i.rs1 (e.operandA i) = (sequential v0 (executedCount e c)).operandA i :=
  h.currentOperand_readSrc hr i.rs1 (.inl rfl)

theorem Tracks.currentOperand_B :
    currentOperand e i.rs2 (e.operandB i) = (sequential v0 (executedCount e c)).operandB i := by
  have hreg := h.currentOperand_readSrc hr i.rs2 (.inr rfl)
  have himm : i.rs2 = none → currentOperand e i.rs2 i.imm = i.imm := fun hn => by
    simp [currentOperand, forwarded, hn]
  have hnone := (Instr.rs2_eq_none_iff i).2
  unfold State.operandB
  cases hfmt : i.fmt with
  | R | S | B => exact hreg
  | I | U | UJ => exact himm (hnone (by simp [hfmt]))

end

/-! ## Sub-steps 4 to 8 -/

section
variable {v0 e t : State} {fl : Bool} {c : Nat}

theorem BackFrame.accessedCount_eq (h : BackFrame e t) : accessedCount t c = accessedCount e c := by
  rw [accessedCount, h.slotW, accessedCount]

theorem BackFrame.executedCount_eq (h : BackFrame e t) : executedCount t c = executedCount e c := by
  rw [executedCount, h.accessedCount_eq, h.slotX, executedCount]

/-- What sub-steps 4 to 8 leave alone goes on tracking the run; of D and S it must be shown. -/
theorem Tracks.of_frame (h : Tracks v0 e c) (hf : BackFrame e t)
    (proceeds : Proceeds v0 (decodedCount t c)) (seqCtr : t.seqCtr = v0.seqCtr + decodedCount t c)
    (inD : ∀ i, t.slotD = some i → FetchedAt (sequential v0 (executedCount e c)) i ∧
      t.bufA = (sequential v0 (executedCount e c)).operandA i.instr ∧
      t.bufB = (sequential v0 (executedCount e c)).operandB i.instr)
    (inS : ∀ i, t.slotS = some i → FetchedAt (sequential v0 (executedCount e c)) i) : Tracks v0 t c where
  meaning := hf.params ▸ h.meaning
  imem := hf.imem.trans h.imem
  proceeds := proceeds
  seqCtr := seqCtr
  regs := hf.regs.trans h.regs
  data := by rw [hf.data, hf.accessedCount_eq, h.data]
  stack := by rw [hf.stack, hf.accessedCount_eq, h.stack]
  inW := by rw [hf.slotW, hf.bufY]; exact h.inW
  inX := by rw [hf.slotX, hf.bufZ, hf.bufM, hf.accessedCount_eq]; exact h.inX
  inD := by rw [hf.executedCount_eq]; exact inD
  inS := by rw [hf.executedCount_eq]; exact inS

end

/-- The word in F is the next one of the run when D and S are empty. -/
theorem FetchedAt.of_word {v0 e : State} {fl : Bool} {c : Nat} (he : FrontInv e fl) (h : Tracks v0 e c)
    (hp : OnPath v0 e c) {f : Fetched} {i : Instr} (hF : e.slotF = some f) (hS : e.slotS = none)
    (hd : decode f.word = .ok i) : FetchedAt (sequential v0 (decodedCount e c)) (decodedRec i f.fpc e) := by
  have hpc : f.fpc = (sequential v0 (decodedCount e c)).pc := by
    rw [← hp.resolved he.emptyD hS, State.nextDecode, hF]
  refine ⟨State.nextInstr_of_word (w := f.word) ?_ hd, hpc⟩
  rw [← hpc, sequential_ifetch, ← h.ifetch_eq]
  exact (he.fetchAhead f hF).2

theorem nextDecode_of_fetch {e t : State} {p : Word} (hF : t.slotF = e.fetchedAt p)
    (hpc : t.pc = e.pcAfterFetch p) : t.nextDecode = p := by
  unfold State.nextDecode
  cases h : t.slotF with
  | some f => exact (fetchedAt_eq_some (hF.symm.trans h)).2.2
  | none => exact hpc.trans (fetchedAt_eq_none (hF.symm.trans h)).1

/-- decode's redirect is the address it assumes to follow, where the fetch had run one word ahead (R209). -/
theorem decodedPc_eq_predictedPc (i : Instr) (a : Word) (e : State) (hpc : e.pc = a + 4#32) :
    decodedPc i a e = (decodedRec i a e).predictedPc := by
  rw [decodedPc, hpc]
  rfl

/-- A fetch that stands where the one instruction in D or S predicts is on the path. -/
theorem onPath_of_predicted {v0 t : State} {c : Nat} {i : Rec}
    (h : (t.slotD = some i ∧ t.slotS = none) ∨ (t.slotD = none ∧ t.slotS = some i))
    (hnd : t.nextDecode = i.predictedPc) : OnPath v0 t c := by
  refine ⟨fun hD hS => ?_, fun j hj => ?_⟩
  · simp [hD, hS] at h
  · obtain rfl : i = j := by
      obtain ⟨hD, hS⟩ | ⟨hD, hS⟩ := h <;> simpa [hD, hS] using hj
    exact hnd

section
variable {v0 e t : State} {fl : Bool} {c : Nat} (he : FrontInv e fl) (htr : Tracks v0 e c)
  (hp : OnPath v0 e c) (hf : BackFrame e t)
include he htr hp hf

/-- The word in F has been decoded into D or S, and the fetch stands where its record predicts. -/
theorem tracks_of_decoded {f : Fetched} {i : Instr} (hF : e.slotF = some f) (hd : decode f.word = .ok i)
    (hS : e.slotS = none) (hseq : t.seqCtr = e.seqCtr + 1)
    (hnd : t.nextDecode = decodedPc i f.fpc e)
    (hslot : (t.slotD = some (decodedRec i f.fpc e) ∧ t.slotS = none ∧ OperandsReady e i ∧
        t.bufA = currentOperand e i.rs1 (e.operandA i) ∧ t.bufB = currentOperand e i.rs2 (e.operandB i)) ∨
      (t.slotD = none ∧ t.slotS = some (decodedRec i f.fpc e))) :
    Tracks v0 t c ∧ OnPath v0 t c := by
  have hat := FetchedAt.of_word he htr hp hF hS hd
  have hexec : decodedCount e c = executedCount e c := by simp [decodedCount, he.emptyD, hS]
  have hcount : decodedCount t c = decodedCount e c + 1 := by
    rw [decodedCount, hf.executedCount_eq, hexec]
    obtain ⟨hD', hS', -⟩ | ⟨hD', hS'⟩ := hslot <;> simp [hD', hS']
  have hproceeds : Proceeds v0 (decodedCount t c) := hcount ▸ proceeds_succ v0 htr.proceeds hat.1
  have hseq' : t.seqCtr = v0.seqCtr + decodedCount t c := by rw [hseq, htr.seqCtr, hcount]; omega
  rw [hexec] at hat
  rw [decodedPc_eq_predictedPc i f.fpc e (he.fetchAhead f hF).1] at hnd
  obtain ⟨hD', hS', hready, hA, hB⟩ | ⟨hD', hS'⟩ := hslot
  · refine ⟨htr.of_frame hf hproceeds hseq' (fun j hj => ?_) (fun j hj => by rw [hS'] at hj; cases hj),
      onPath_of_predicted (.inl ⟨hD', hS'⟩) hnd⟩
    rw [hD'] at hj
    cases hj
    exact ⟨hat, hA.trans (htr.currentOperand_A hready), hB.trans (htr.currentOperand_B hready)⟩
  · refine ⟨htr.of_frame hf hproceeds hseq' (fun j hj => by rw [hD'] at hj; cases hj) (fun j hj => ?_),
      onPath_of_predicted (.inr ⟨hD', hS'⟩) hnd⟩
    rw [hS'] at hj
    cases hj
    exact hat

/-- D and S have stayed as they were, and so has the address of the next word. -/
theorem tracks_of_kept (hD : t.slotD = none) (hS : t.slotS = e.slotS) (hseq : t.seqCtr = e.seqCtr)
    (hnd : t.nextDecode = e.nextDecode) : Tracks v0 t c ∧ OnPath v0 t c := by
  have hcount : decodedCount t c = decodedCount e c := by
    simp only [decodedCount, hf.executedCount_eq, hD, hS, he.emptyD]
  refine ⟨htr.of_frame hf (hcount ▸ htr.proceeds) (by rw [hseq, htr.seqCtr, hcount])
    (fun i hi => by rw [hD] at hi; cases hi) (by rw [hS]; exact htr.inS), ?_, ?_⟩
  · rw [hcount, hnd, hS]
    exact fun _ => hp.resolved he.emptyD
  · rw [hnd, hS, hD, ← he.emptyD]
    exact hp.predicted

/-- S has entered D, and the address of the next word is as it was. -/
theorem tracks_of_promoted {i : Rec} (hSe : e.slotS = some i) (hb : e.bubble = 0)
    (hD : t.slotD = some i) (hS : t.slotS = none) (hseq : t.seqCtr = e.seqCtr)
    (hA : t.bufA = currentOperand e i.instr.rs1 (e.operandA i.instr))
    (hB : t.bufB = currentOperand e i.instr.rs2 (e.operandB i.instr))
    (hnd : t.nextDecode = e.nextDecode) : Tracks v0 t c ∧ OnPath v0 t c := by
  have hcount : decodedCount t c = decodedCount e c := by
    simp [decodedCount, hf.executedCount_eq, hD, hS, he.emptyD, hSe]
  have hready := operandsReady_of_parked he hSe hb
  refine ⟨htr.of_frame hf (hcount ▸ htr.proceeds) (by rw [hseq, htr.seqCtr, hcount]) (fun j hj => ?_)
    (fun j hj => by rw [hS] at hj; cases hj),
    onPath_of_predicted (.inl ⟨hD, hS⟩) (hnd.trans (hp.predicted i (.inr hSe)))⟩
  rw [hD] at hj
  cases hj
  exact ⟨htr.inS i hSe, hA.trans (htr.currentOperand_A hready), hB.trans (htr.currentOperand_B hready)⟩

end

/-- Sub-steps 4 to 8 of a machine that runs on keep tracking the run, on its path. -/
theorem BackResult.tracks {v0 e t : State} {fl : Bool} {c : Nat} (h : BackResult e fl t)
    (he : FrontInv e fl) (ht : t.halted = false) (htr : Tracks v0 e c) (hp : OnPath v0 e c) :
    Tracks v0 t c ∧ OnPath v0 t c := by
  have hf := h.frame
  have hnd : e.slotF = none → e.nextDecode = e.pc := fun hF => by rw [State.nextDecode, hF]
  cases h with
  | decodeError => simp [State.halted] at ht
  | completed => simp [State.halted] at ht
  | parked f i n tr hF hd =>
    exact tracks_of_decoded he htr hp hf hF hd (he.slotS_of_word hF) rfl rfl (.inr ⟨he.emptyD, rfl⟩)
  | entered f i tr hF hd hneed =>
    exact tracks_of_decoded he htr hp hf hF hd (he.slotS_of_word hF) rfl (nextDecode_of_fetch rfl rfl)
      (.inl ⟨rfl, he.slotS_of_word hF, hneed.operandsReady, rfl, rfl⟩)
  | waited => exact tracks_of_kept he htr hp hf he.emptyD rfl rfl rfl
  | withheld => exact tracks_of_kept he htr hp hf he.emptyD rfl rfl rfl
  | fetched tr hfl hF =>
    exact tracks_of_kept he htr hp hf he.emptyD rfl rfl
      ((nextDecode_of_fetch rfl rfl).trans (hnd hF).symm)
  | promoted i tr hS hb =>
    exact tracks_of_promoted he htr hp hf hS hb rfl rfl rfl rfl rfl
      ((nextDecode_of_fetch rfl rfl).trans (hnd (he.parkedAlone (by simp [hS])).1).symm)

end Sys2Proof.Machine
end

section
/-! PROOFS. The recoverable errors that a stage and a pipelined step log, in the trace and in the error registers (R301,
R303, R304, R309). -/

namespace Sys2Proof.Machine

open Sys2Proof.Safety Sys2Proof.Claims

/-! ## Logging -/

/-- The three error registers (R37). -/
def State.errorRegs (s : State) : Bool × BitVec 8 × Word := (s.errSeen, s.errCode, s.errInfo)

/-- The error registers after one more error (R301). -/
def logged (_ : Bool × BitVec 8 × Word) (x : ErrCode × Word) : Bool × BitVec 8 × Word :=
  (true, x.1.num, x.2)

/-- From s to t events have been added whose errors are es, and these have been logged, in this order. -/
structure Logs (s t : State) (es : List (ErrCode × Word)) : Prop where
  events : ∃ tr, t.trace = s.trace ++ tr ∧ errorsOf tr = es
  regs : t.errorRegs = es.foldl logged s.errorRegs

theorem Logs.trace {s t : State} {es : List (ErrCode × Word)} (h : Logs s t es) :
    errorsOf t.trace = errorsOf s.trace ++ es := by
  obtain ⟨tr, htr, rfl⟩ := h.events
  rw [htr, errorsOf_append]

theorem Logs.trans {a b c : State} {es fs : List (ErrCode × Word)} (h : Logs a b es) (k : Logs b c fs) :
    Logs a c (es ++ fs) := by
  obtain ⟨tr, htr, rfl⟩ := h.events
  obtain ⟨tr', htr', rfl⟩ := k.events
  refine ⟨⟨tr ++ tr', by rw [htr', htr, List.append_assoc], errorsOf_append tr tr'⟩, ?_⟩
  rw [k.regs, h.regs, List.foldl_append]

/-- Nothing is logged where the error registers stay and the new events name no error. -/
theorem logs_nil {s t : State} (tr : List Event) (htr : t.trace = s.trace ++ tr) (hn : NoErr tr)
    (hr : t.errorRegs = s.errorRegs) : Logs s t [] :=
  ⟨⟨tr, htr, hn⟩, hr⟩

/-- One error is logged, with its event (R301). -/
theorem logs_error {s t : State} (c : ErrCode) (info : Word) (htr : t.trace = s.trace ++ [.err c info])
    (hr : t.errorRegs = (true, c.num, info)) : Logs s t [(c, info)] :=
  ⟨⟨[.err c info], htr, rfl⟩, hr⟩

/-- Nothing is logged where the error registers and the trace stay. -/
theorem logs_kept {s t : State} (htr : t.trace = s.trace) (hr : t.errorRegs = s.errorRegs) : Logs s t [] :=
  logs_nil [] (by rw [htr, List.append_nil]) rfl hr

theorem BackKept.logs {e t : State} (h : BackKept e t) : Logs e t [] := by
  obtain ⟨tr, htr, hn⟩ := h.trace
  exact logs_nil tr htr hn (by simp only [State.errorRegs, h.errSeen, h.errCode, h.errInfo])

/-! ## The stages -/

/-- The error of the execute stage: a division by 0, at the instruction's address (R304). -/
def divideErrors (i : Instr) (a b : Word) : List (ErrCode × Word) :=
  match i with
  | .div _ _ _ | .rem _ _ _ => if b = 0#32 then [(.divZero, a)] else []
  | _ => []

/-- The error of the memory stage: a load or store whose access at z is out of range (R303). -/
def accessErrors (i : Instr) (p : Params) (z : Word) : List (ErrCode × Word) :=
  match loadWidth i, storeWidth i with
  | some n, _ => if Params.accessRegion p z n = none then [(.loadRange, z)] else []
  | none, some n => if Params.accessRegion p z n = none then [(.storeRange, z)] else []
  | none, none => []

theorem accessErrors_congr {p q : Params} (h : SameMeaning p q) (i : Instr) (z : Word) :
    accessErrors i p z = accessErrors i q z := by
  simp only [accessErrors, h.region]

theorem executeDivide_logs (f : Params → Word → Word → Word) (r : Rec) (s : State) :
    Logs s (executeDivide f r s).2 (if s.bufB = 0#32 then [(.divZero, r.fpc)] else []) := by
  by_cases h : s.bufB = 0#32
  · rw [executeDivide_zero f r s h, if_pos h]
    exact logs_error _ _ rfl rfl
  · rw [executeDivide_nonzero f r s h, if_neg h]
    exact logs_kept rfl rfl

theorem executeStage_logs (r : Rec) (s : State) :
    Logs s (executeStage r s).2 (divideErrors r.instr r.fpc s.bufB) := by
  obtain ⟨i, a, q, p, tk⟩ := r
  cases i
  case div | rem => exact executeDivide_logs _ _ s
  all_goals exact logs_kept rfl rfl

theorem memoryLoad_logs (n : Nat) (ext : BitVec (8 * n) → Word) (s : State) :
    Logs s (memoryLoad n ext s)
      (if Params.accessRegion s.params s.bufZ n = none then [(.loadRange, s.bufZ)] else []) := by
  cases h : Params.accessRegion s.params s.bufZ n with
  | none => rw [memoryLoad_outOfRange n ext s h, if_pos rfl]; exact logs_error _ _ rfl rfl
  | some g => rw [memoryLoad_inRange n ext s g h, if_neg (by simp)]; exact logs_kept rfl rfl

theorem memoryStore_logs (n : Nat) (val : Word → BitVec (8 * n)) (s : State) :
    Logs s (memoryStore n val s)
      (if Params.accessRegion s.params s.bufZ n = none then [(.storeRange, s.bufZ)] else []) := by
  cases h : Params.accessRegion s.params s.bufZ n with
  | none => rw [memoryStore_outOfRange n val s h, if_pos rfl]; exact logs_error _ _ rfl rfl
  | some g => rw [memoryStore_inRange n val s g h, if_neg (by simp)]; cases g <;> exact logs_kept rfl rfl

theorem memoryStage_logs (r : Rec) (s : State) :
    Logs s (memoryStage r s) (accessErrors r.instr s.params s.bufZ) := by
  obtain ⟨i, a, q, p, tk⟩ := r
  cases i
  case lb | lh | lw | ld => exact memoryLoad_logs _ _ s
  case sb | sh | sw | sd => exact memoryStore_logs _ _ s
  all_goals exact logs_kept rfl rfl

/-! ## The pipelined step -/

/-- The errors of X's memory stage in this step. -/
def accessErrorsOfX (s : State) : List (ErrCode × Word) :=
  s.slotX.elim [] fun i => accessErrors i.instr s.params s.bufZ

/-- The errors of D's execute stage in this step. -/
def divideErrorsOfD (s : State) : List (ErrCode × Word) :=
  s.slotD.elim [] fun i => divideErrors i.instr i.fpc s.bufB

theorem subMemory_logs (s : State) : Logs s (subMemory s) (accessErrorsOfX s) := by
  cases hX : s.slotX with
  | none =>
    rw [subMemory_none s hX, accessErrorsOfX, hX]
    exact logs_kept rfl rfl
  | some i =>
    rw [subMemory_some s i hX, accessErrorsOfX, hX]
    have h := (memoryStage_logs i s).trans
      (logs_nil (t := ((memoryStage i s).emit (.mem i)).moveToW i) [.mem i] rfl rfl rfl)
    rwa [List.append_nil] at h

theorem resolveControl_logs (i : Rec) (s : State) : Logs s (resolveControl i s).1 [] := by
  unfold resolveControl
  split
  · exact logs_nil [.flush] rfl rfl rfl
  · split
    · exact logs_nil [.flush] rfl rfl rfl
    · exact logs_kept rfl rfl

theorem subExecute_logs (s : State) : Logs s (subExecute s).1 (divideErrorsOfD s) := by
  cases hD : s.slotD with
  | none =>
    rw [subExecute_none s hD, divideErrorsOfD, hD]
    exact logs_kept rfl rfl
  | some i =>
    rw [subExecute_some s i hD, divideErrorsOfD, hD]
    have h := ((executeStage_logs i s).trans (logs_nil
      (t := ((executeStage i s).2.emit (.ex (executeStage i s).1)).moveToX (executeStage i s).1)
      [.ex (executeStage i s).1] rfl rfl rfl)).trans (resolveControl_logs (executeStage i s).1 _)
    simpa only [List.append_nil, Option.elim_some] using h

theorem writeback_errors (i : Rec) (s : State) :
    (writeback i s).trace = s.trace ∧ (writeback i s).errorRegs = s.errorRegs := by
  rw [writeback_shape]
  exact ⟨rfl, rfl⟩

/-- The memory stage leaves D, B and the record's address to the execute stage as they were. -/
theorem divideErrorsOfD_subMemory (s : State) : divideErrorsOfD (subMemory s) = divideErrorsOfD s := by
  unfold divideErrorsOfD subMemory
  cases s.slotX <;> simp

/-- The events of sub-step 1: W's writeback, if it holds an instruction (R203, R226). -/
def writebackEvents (s : State) : List Event := s.slotW.toList.map .wb

/-- A pipelined step first retires W, and then logs the error of X's memory stage and that of D's execute stage
(R203, R205, R206, R309). -/
theorem pipelinedStep_logs (s t : State) (h : pipelinedStep s = .next t) :
    ∃ u : State, u.trace = writebackEvents s ∧ u.errorRegs = s.errorRegs ∧
      Logs u t (accessErrorsOfX s ++ divideErrorsOfD s) := by
  have hthrough : ∀ u : State, accessErrorsOfX u = accessErrorsOfX s → divideErrorsOfD u = divideErrorsOfD s →
      (pipelineBack (subExecute (subMemory u)).2 (subExecute (subMemory u)).1).outcome = .next t →
      Logs u t (accessErrorsOfX s ++ divideErrorsOfD s) := fun u hX hD ht => by
    have hexec := subExecute_logs (subMemory u)
    rw [divideErrorsOfD_subMemory, hD] at hexec
    have hmem := subMemory_logs u
    rw [hX] at hmem
    have hall := (hmem.trans hexec).trans (pipelineBack_kept _ _ t ht).logs
    rwa [List.append_nil] at hall
  unfold pipelinedStep at h
  obtain ⟨hW, hs⟩ | ⟨i, hW, hs⟩ := subWriteback_cases s.beginStep
  · rw [hs] at h
    have hev : writebackEvents s = [] := by rw [writebackEvents, show s.slotW = none from hW]; rfl
    exact ⟨s.beginStep, hev.symm, rfl, hthrough s.beginStep rfl rfl h⟩
  · have hev : writebackEvents s = [.wb i] := by rw [writebackEvents, show s.slotW = some i from hW]; rfl
    obtain ⟨htr, hr⟩ := writeback_errors i s.beginStep
    refine ⟨((writeback i s.beginStep).emit (.wb i)).emptyW, ?_, hr, ?_⟩
    · rw [State.emptyW_trace, State.emit_trace, htr, hev]
      rfl
    · obtain ⟨hd, hs⟩ | ⟨hd, hs⟩ := hs <;> rw [hs] at h
      · cases h
        obtain ⟨-, hD, hX, -⟩ := (State.drained_iff _).1 hd
        simp only [State.emptyW_slotD, State.emptyW_slotX, State.emit_slotD, State.emit_slotX, writeback_slotD,
          writeback_slotX, State.beginStep_slotD, State.beginStep_slotX] at hD hX
        rw [accessErrorsOfX, divideErrorsOfD, hX, hD]
        exact logs_nil [.done] rfl rfl rfl
      · exact hthrough _ (by simp [accessErrorsOfX]) (by simp [divideErrorsOfD]) h

theorem errorsOf_pipelinedStep {s t : State} (h : pipelinedStep s = .next t) :
    errorsOf t.trace = accessErrorsOfX s ++ divideErrorsOfD s := by
  obtain ⟨u, htr, -, hlogs⟩ := pipelinedStep_logs s t h
  have hnone : errorsOf (writebackEvents s) = [] := by
    rw [writebackEvents]
    cases s.slotW <;> rfl
  rw [hlogs.trace, htr, hnone, List.nil_append]

theorem errorRegs_pipelinedStep {s t : State} (h : pipelinedStep s = .next t) :
    t.errorRegs = (errorsOf t.trace).foldl logged s.errorRegs := by
  obtain ⟨u, -, hr, hlogs⟩ := pipelinedStep_logs s t h
  rw [errorsOf_pipelinedStep h, hlogs.regs, hr]

/-- The writeback of W is the first event of the step. -/
theorem trace_pipelinedStep {s t : State} (h : pipelinedStep s = .next t) (i : Rec) (hW : s.slotW = some i) :
    ∃ es, t.trace = .wb i :: es := by
  obtain ⟨u, htr, -, ⟨⟨tr, htr', -⟩, -⟩⟩ := pipelinedStep_logs s t h
  exact ⟨tr, by rw [htr', htr, writebackEvents, hW]; rfl⟩

end Sys2Proof.Machine
end

section
/-! PROOFS. The pipelined machine ends where the sequential run does: each step keeps the simulation with less work
left, or completes the run, or raises the run's decode error (R204, R209, R215, R227, R228). -/

namespace Sys2Proof.Machine

open Sys2Proof.Safety Sys2Proof.Claims

/-! ## The simulation and its ends -/

/-- The running pipelined machine meets the invariant and tracks the run from v0, with c instructions retired. -/
structure Simulates (v0 s : State) (c : Nat) : Prop where
  running : RunsPipelined s
  pipe : PipeInv s
  tracks : Tracks v0 s c
  onPath : OnPath v0 s c

/-- The run from v0 has nothing to fetch after n instructions, and t has completed with its registers, bytes and pc. -/
structure Completed (v0 t : State) (n : Nat) : Prop where
  done : t.done = true
  regs : t.regs = (sequential v0 n).regs
  data : t.data = (sequential v0 n).data
  stack : t.stack = (sequential v0 n).stack
  pc : t.pc = (sequential v0 n).pc
  proceeds : Proceeds v0 n
  nothing : (sequential v0 n).ifetch (sequential v0 n).pc = none

/-- The run from v0 comes to the bad word w, and t has raised its error with the instructions in X and W in flight
and c retired. -/
structure Failed (v0 t : State) (c : Nat) (w : Word) (code : ErrCode) : Prop where
  fatal : t.fatal = true
  fatalCode : t.fatalCode = code.num
  fatalInfo : t.fatalInfo = w
  emptyF : t.slotF = none
  emptyD : t.slotD = none
  emptyS : t.slotS = none
  tracks : Tracks v0 t c
  pc : t.pc = (sequential v0 (decodedCount t c)).pc + 4#32
  word : (sequential v0 (decodedCount t c)).ifetch (sequential v0 (decodedCount t c)).pc = some w
  bad : decodeError w = some code

/-- What the whole pipelined step keeps, and how the machine can end. -/
inductive SimStep (v0 s : State) (c : Nat) (t : State) : Prop where
  | running (front : ∃ e fl, Front s e fl ∧ FrontInv e fl ∧ BackResult e fl t)
      (sim : Simulates v0 t (c + held s.slotW))
  | completed (n : Nat) (hn : n = executedCount s c) (hX : s.slotX = none) (hD : s.slotD = none)
      (h : Completed v0 t n)
  | failed (w : Word) (code : ErrCode) (h : Failed v0 t (c + held s.slotW) w code)

section
variable {v0 s t : State} {c : Nat}

theorem completed_of_lastWriteback (h : Simulates v0 s c) (i : Rec) (hW : s.slotW = some i)
    (hF : s.slotF = none) (hD : s.slotD = none) (hX : s.slotX = none) (hS : s.slotS = none) :
    Completed v0 ((writeback i s.beginStep).emit (.wb i)).emptyW.finish (executedCount s c) := by
  have hcount : decodedCount s c = executedCount s c := by simp [decodedCount, hD, hS]
  have hacc : accessedCount s c = executedCount s c := by simp [executedCount, hX]
  have hpc : s.pc = (sequential v0 (executedCount s c)).pc := by
    rw [← hcount, ← h.onPath.resolved hD hS, State.nextDecode, hF]
  have hregs := h.tracks.regs_of_writeback (t := (writeback i s.beginStep))
    (readReg_of_writeback s.beginStep _ i hW rfl) (writeback_slot0 s.beginStep i)
  constructor
  case done => rfl
  case regs => exact hregs.trans (by rw [← hacc, accessedCount])
  case data => simpa [← hacc] using h.tracks.data
  case stack => simpa [← hacc] using h.tracks.stack
  case pc => simpa using hpc
  case proceeds => exact hcount ▸ h.tracks.proceeds
  case nothing =>
    rw [sequential_ifetch, ← h.tracks.ifetch_eq, ← hpc]
    exact h.pipe.fetchEnded hF hS hX (.inr (by simp [hW]))

theorem completed_of_fetch {e : State} (htr : Tracks v0 e c) (hp : OnPath v0 e c) (hd : e.drained = true)
    (hw : e.ifetch e.pc = none) (tr : List Event) :
    Completed v0 { e with win := e.win.shift, done := true, trace := tr } (executedCount e c) := by
  obtain ⟨hF, hD, hX, hW, hS, -⟩ := (State.drained_iff e).1 hd
  have hexec : executedCount e c = c := by simp [executedCount, accessedCount, hX, hW]
  have hacc : accessedCount e c = c := by simp [accessedCount, hW]
  have hcount : decodedCount e c = c := by simp [decodedCount, hD, hS, hexec]
  have hpc : e.pc = (sequential v0 c).pc := by
    rw [← hcount, ← hp.resolved hD hS, State.nextDecode, hF]
  rw [hexec]
  constructor
  case done => rfl
  case regs => exact htr.regs
  case data => exact hacc ▸ htr.data
  case stack => exact hacc ▸ htr.stack
  case pc => exact hpc
  case proceeds => exact hcount ▸ htr.proceeds
  case nothing => rwa [sequential_ifetch, ← htr.ifetch_eq, ← hpc]

theorem failed_of_decodeError {e : State} {fl : Bool} (he : FrontInv e fl) (htr : Tracks v0 e c)
    (hp : OnPath v0 e c) (f : Fetched) (code : ErrCode) (hF : e.slotF = some f)
    (hc : decodeError f.word = some code) :
    Failed v0 ((shiftWindow e).emptyF.raiseFatal code f.word) c f.word code := by
  have hD := he.emptyD
  have hS : e.slotS = none := he.slotS_of_word hF
  have hframe := (BackResult.decodeError (fl := fl) f code hF hc).frame
  have hcount : decodedCount ((shiftWindow e).emptyF.raiseFatal code f.word) c = decodedCount e c := rfl
  obtain ⟨hpc, hw⟩ := he.fetchAhead f hF
  have hfpc : f.fpc = (sequential v0 (decodedCount e c)).pc := by
    rw [← hp.resolved hD hS, State.nextDecode, hF]
  constructor
  case tracks =>
    exact htr.of_frame hframe htr.proceeds htr.seqCtr (fun i hi => by cases hD.symm.trans hi)
      fun i hi => by cases hS.symm.trans hi
  case pc => rw [hcount, ← hfpc]; exact hpc
  case word => rw [hcount, ← hfpc, sequential_ifetch, ← htr.ifetch_eq, hw]
  case emptyD => exact hD
  case emptyS => exact hS
  case bad => exact hc
  all_goals rfl

theorem BackResult.halted_eq {e : State} {fl : Bool} (h : BackResult e fl t) (hrun : e.halted = false) :
    t.halted = false ∨ (∃ f code, e.slotF = some f ∧ Machine.decodeError f.word = some code ∧
      t = (shiftWindow e).emptyF.raiseFatal code f.word) ∨
    ∃ tr, e.drained = true ∧ e.ifetch e.pc = none ∧
      t = { e with win := e.win.shift, done := true, trace := tr } := by
  cases h with
  | decodeError f code hF hc => exact .inr (.inl ⟨f, code, hF, hc, rfl⟩)
  | completed tr _ hd hw => exact .inr (.inr ⟨tr, hd, hw, rfl⟩)
  | parked | entered | waited | promoted | withheld | fetched => exact .inl hrun

/-- Every step of the simulation answers a next state, in one of three ways. -/
theorem Simulates.step (h : Simulates v0 s c) : ∃ t, step s = .next t ∧ SimStep v0 s c t := by
  obtain ⟨hs, hp⟩ := h.running
  obtain ⟨t, ht, hres⟩ := pipelinedStep_result s h.pipe
  refine ⟨t, (step_pipelined s hs hp).trans ht, ?_⟩
  cases hres with
  | lastWriteback i hW hF hD hX hS =>
    exact .completed _ rfl hX hD (completed_of_lastWriteback h i hW hF hD hX hS)
  | through e fl t hfront hready hback =>
    have he := hfront.frontInv h.pipe
    have htr := hfront.tracks h.pipe h.tracks
    have hpath := hfront.onPath h.pipe h.tracks h.onPath
    have hrun : e.halted = false := by
      rw [State.halted, hfront.done, hfront.fatal]
      exact hs
    obtain hrun' | ⟨f, code, hF, hc, rfl⟩ | ⟨tr, hd, hw, rfl⟩ := hback.halted_eq hrun
    · obtain ⟨htr', hpath'⟩ := hback.tracks he hrun' htr hpath
      refine .running ⟨e, fl, hfront, he, hback⟩ ⟨⟨hrun', ?_⟩, hback.pipeInv he hrun', htr', hpath'⟩
      rw [hback.frame.params, hfront.params]
      exact hp
    · exact .failed f.word code (failed_of_decodeError he htr hpath f code hF hc)
    · obtain ⟨-, hD, hX, -⟩ := hfront.drained_iff.1 hd
      have hcompleted := completed_of_fetch htr hpath hd hw tr
      rw [hfront.executedCount_eq, hD, held_none, Nat.add_zero] at hcompleted
      exact .completed _ rfl hX hD hcompleted

end

/-! ## Progress -/

/-- 1 for an empty F: a fetch is still to be made. -/
def toFetch (s : State) : Nat := if s.slotF = none then 1 else 0

/-- A bound on the steps left to a machine that will have decoded `total` instructions: each stage that is left to
an instruction counts, a stall with its length, and a decode more than all the stages after it. -/
def workLeft (total : Nat) (s : State) : Nat :=
  10 * (total - s.seqCtr) + (5 * held s.slotS + s.bubble) + 4 * held s.slotD + 2 * held s.slotX +
    held s.slotW + toFetch s

theorem held_eq_zero {r : Option Rec} : held r = 0 ↔ r = none := by
  cases r <;> simp

theorem held_pos {r : Option Rec} (h : r ≠ none) : held r = 1 := if_neg h

theorem toFetch_le (s : State) : toFetch s ≤ 1 := by
  unfold toFetch
  split <;> omega

/-- A flush leaves a fetch to be made, but only where D has moved on. -/
theorem Front.toFetch_le {s e : State} {fl : Bool} (h : Front s e fl) :
    toFetch e ≤ toFetch s + held s.slotD := by
  cases hD : s.slotD with
  | none =>
    obtain ⟨-, -, hF⟩ := h.of_emptyD hD
    simp only [toFetch, hF]
    omega
  | some i => exact (Machine.toFetch_le e).trans (Nat.le_add_left _ _)

/-- Sub-steps 1 to 3 move every instruction beyond decode one stage on. -/
theorem Front.workLeft_le {s e : State} {fl : Bool} (h : Front s e fl) (total : Nat) :
    workLeft total e + held s.slotD + held s.slotX + held s.slotW ≤ workLeft total s := by
  have hF := h.toFetch_le
  simp only [workLeft, h.seqCtr, h.slotS, h.bubble, h.slotD, h.slotX, h.slotW, held_map, held_none]
  omega

/-- Sub-steps 4 to 8 do not add work, and take some off where the front has left X and W empty. -/
theorem BackResult.workLeft_le {e t : State} {fl : Bool} (h : BackResult e fl t) (he : FrontInv e fl)
    (ht : t.halted = false) (total : Nat) (hle : t.seqCtr ≤ total) :
    workLeft total t + (1 - (held e.slotX + held e.slotW)) ≤ workLeft total e := by
  have hD : held e.slotD = 0 := by rw [he.emptyD]; rfl
  have hword : ∀ f, e.slotF = some f → e.slotS = none ∧ e.bubble = 0 ∧ toFetch e = 0 := fun f hF =>
    ⟨he.slotS_of_word hF, he.bubble_of_emptyS (he.slotS_of_word hF), by simp [toFetch, hF]⟩
  have hempty : e.slotF = none → toFetch e = 1 := fun hF => by simp [toFetch, hF]
  have hle1 := Machine.toFetch_le t
  obtain ⟨k, hk⟩ : ∃ k, toFetch t = k := ⟨_, rfl⟩
  rw [hk] at hle1
  rw [workLeft, hk, workLeft]
  cases h with
  | decodeError => simp [State.halted] at ht
  | completed => simp [State.halted] at ht
  | parked f i n tr hF hd hneed hpos =>
    obtain ⟨hS, hb, hf⟩ := hword f hF
    have := hneed.bound
    simp only [hS, hb, hf, hD, held_none, held_some] at hle ⊢
    omega
  | entered f i tr hF hd hneed =>
    obtain ⟨hS, hb, hf⟩ := hword f hF
    simp only [hS, hb, hf, hD, held_none, held_some] at hle ⊢
    omega
  | waited i tr hS hb =>
    have hk' : toFetch e = k := hk
    simp only [hS, hk', held_some]
    omega
  | promoted i tr hS hb =>
    have hf := hempty (he.parkedAlone (by simp [hS])).1
    simp only [hS, hf, hD, hb, held_none, held_some]
    omega
  | withheld tr hfl hF hS =>
    have hk' : toFetch e = k := hk
    simp only [hk', held_pos (he.flushedX hfl)]
    omega
  | fetched tr hfl hF hS hd =>
    have hf := hempty hF
    cases hw : e.ifetch e.pc with
    | some w =>
      have hk' : k = 0 := by rw [← hk, toFetch, State.fetchedAt, hw]; rfl
      simp only [hf, hk']
      omega
    | none =>
      have hbusy : held e.slotX + held e.slotW ≠ 0 := fun h0 => by
        have hdrained := (State.drained_iff e).2 ⟨hF, he.emptyD, held_eq_zero.1 (by omega),
          held_eq_zero.1 (by omega), hS, he.bubble_of_emptyS hS⟩
        rw [hd hw] at hdrained
        cases hdrained
      simp only [hf]
      omega

/-- Every step of a machine that runs on leaves less work. -/
theorem workLeft_lt {s e t : State} {fl : Bool} (hfront : Front s e fl) (he : FrontInv e fl)
    (hback : BackResult e fl t) (ht : t.halted = false) (total : Nat) (hle : t.seqCtr ≤ total) :
    workLeft total t < workLeft total s := by
  have h1 := hfront.workLeft_le total
  have h2 := hback.workLeft_le he ht total hle
  rw [hfront.slotX, hfront.slotW, held_map] at h2
  omega

end Sys2Proof.Machine
end

section
/-! PROOFS. The errors of the sequential run, and the end of every pipelined run: it completes with all of them logged,
or raises the run's decode error (R228, R301 to R304). -/

namespace Sys2Proof.Machine

open Sys2Proof.Safety Sys2Proof.Claims

/-! ## The errors of the run -/

/-- The recoverable errors of the next instruction, run alone (R303, R304). -/
def State.nextErrors (v : State) : List (ErrCode × Word) :=
  v.nextInstr.elim [] fun i =>
    divideErrors i v.pc (v.operandB i) ++ accessErrors i v.params (execResult i v).bufZ

/-- The recoverable errors of the first k instructions of the run, in order. -/
def errorsBefore (v0 : State) (k : Nat) : List (ErrCode × Word) :=
  (List.range k).flatMap fun j => (sequential v0 j).nextErrors

theorem errorsBefore_succ (v0 : State) (k : Nat) :
    errorsBefore v0 (k + 1) = errorsBefore v0 k ++ (sequential v0 k).nextErrors := by
  simp [errorsBefore, List.range_succ]

theorem errorLog_succ {s t : State} (hs : s.halted = false) (h : step s = .next t) (m : Nat) :
    errorLog (m + 1) s = errorsOf t.trace ++ errorLog m t := by
  simp [errorLog, hs, h]

/-- The error that a step logs for D and the one that the next step will log for X are those of D's instruction. -/
theorem errorsBefore_step {v0 s e t : State} {fl : Bool} {c : Nat} (htr : Tracks v0 s c)
    (hfront : Front s e fl) (hframe : BackFrame e t) :
    errorsBefore v0 (executedCount s c) ++ (divideErrorsOfD s ++ accessErrorsOfX t) =
      errorsBefore v0 (executedCount t (c + held s.slotW)) := by
  have hX : t.slotX = s.slotD.map fun i => (executeStage i s).1 := hframe.slotX.trans hfront.slotX
  rw [hframe.executedCount_eq, hfront.executedCount_eq, divideErrorsOfD, accessErrorsOfX, hX]
  cases hD : s.slotD with
  | none => simp
  | some i =>
    obtain ⟨⟨hnext, hpc⟩, -, hB⟩ := htr.inD i hD
    have hZ : t.bufZ = (execResult i.instr (sequential v0 (executedCount s c))).bufZ := by
      rw [hframe.bufZ, hfront.bufZ, hD, ← sequential_succ v0 hnext]
      exact (htr.executeStage_eq i hD).1
    have hmeaning : SameMeaning t.params (sequential v0 (executedCount s c)).params := by
      rw [hframe.params, hfront.params]
      exact htr.meaning_at _
    rw [held_some, errorsBefore_succ, State.nextErrors, hnext]
    simp only [Option.elim_some, Option.map_some, executeStage_rec_instr]
    rw [accessErrors_congr hmeaning, hZ, hpc, hB]

/-- L has been logged: the errors of all instructions through their execute stage, but for the one that X's memory
stage will log. -/
def LoggedSoFar (v0 s : State) (c : Nat) (L : List (ErrCode × Word)) : Prop :=
  L ++ accessErrorsOfX s = errorsBefore v0 (executedCount s c)

theorem LoggedSoFar.step {v0 s e t : State} {fl : Bool} {c : Nat} {L : List (ErrCode × Word)}
    (h : LoggedSoFar v0 s c L) (htr : Tracks v0 s c) (hfront : Front s e fl) (hframe : BackFrame e t)
    (hstep : pipelinedStep s = .next t) : LoggedSoFar v0 t (c + held s.slotW) (L ++ errorsOf t.trace) := by
  rw [LoggedSoFar] at h ⊢
  rw [errorsOf_pipelinedStep hstep, ← errorsBefore_step htr hfront hframe, ← h]
  simp only [List.append_assoc]

/-- With D and X empty a step logs nothing, and all errors have been logged. -/
theorem LoggedSoFar.last {v0 s t : State} {c : Nat} {L : List (ErrCode × Word)} (h : LoggedSoFar v0 s c L)
    (hX : s.slotX = none) (hD : s.slotD = none) (hstep : pipelinedStep s = .next t) :
    errorsOf t.trace = [] ∧ L = errorsBefore v0 (executedCount s c) := by
  rw [errorsOf_pipelinedStep hstep, ← h]
  simp [accessErrorsOfX, divideErrorsOfD, hX, hD]

/-! ## The end of a pipelined run -/

/-- The run from v0 has ended in u after m steps from s: completed, with the errors of the whole run logged if L were
logged before s, or with the run's decode error. -/
def EndsIn (v0 s : State) (L : List (ErrCode × Word)) (m : Nat) (u : State) : Prop :=
  (∃ n, Completed v0 u n ∧ L ++ errorLog m s = errorsBefore v0 n) ∨ ∃ c w code, Failed v0 u c w code

theorem Proceeds.le_of_stuck {v0 : State} {k N : Nat} (h : Proceeds v0 k)
    (hN : (sequential v0 N).nextInstr = none) : k ≤ N := by
  by_contra hlt
  exact h N (by omega) hN

/-- A simulation of a run that comes to an end comes to its end, by induction on the work left. -/
theorem Simulates.ends {v0 : State} {N : Nat} (hN : (sequential v0 N).nextInstr = none) {s : State} {c : Nat}
    (h : Simulates v0 s c) (L : List (ErrCode × Word))
    (hL : LoggedSoFar v0 s c L) : ∃ m u, stepN m s = .next u ∧ EndsIn v0 s L m u := by
  induction hk : workLeft (v0.seqCtr + N) s using Nat.strong_induction_on generalizing s c L with
  | h k ih =>
    have hs := h.running.1
    obtain ⟨t, ht, hres⟩ := h.step
    have hstep : pipelinedStep s = .next t := (step_pipelined s hs h.running.2).symm.trans ht
    cases hres with
    | running front sim =>
      obtain ⟨e, fl, hfront, he, hback⟩ := front
      have hbound : t.seqCtr ≤ v0.seqCtr + N := by
        have := sim.tracks.proceeds.le_of_stuck hN
        rw [sim.tracks.seqCtr]
        omega
      have hlt := hk ▸ workLeft_lt hfront he hback sim.running.1 _ hbound
      have hL' := hL.step h.tracks hfront hback.frame hstep
      obtain ⟨m, u, hm, hend⟩ := ih _ hlt sim (L ++ errorsOf t.trace) hL' rfl
      refine ⟨m + 1, u, (stepN_succ_of_next m s t ht).trans hm, hend.imp_left ?_⟩
      rintro ⟨n, hn, hlog⟩
      exact ⟨n, hn, by rw [errorLog_succ hs ht, ← List.append_assoc, hlog]⟩
    | completed n hn hX hD hcompleted =>
      refine ⟨1, t, stepN_succ_of_next 0 s t ht, .inl ⟨n, hcompleted, ?_⟩⟩
      obtain ⟨herr, hall⟩ := hL.last hX hD hstep
      rw [hn, ← hall, errorLog_succ hs ht, herr]
      simp [errorLog]
    | failed w code hfailed => exact ⟨1, t, stepN_succ_of_next 0 s t ht, .inr ⟨_, w, code, hfailed⟩⟩

end Sys2Proof.Machine
end

section
/-! PROOFS. The non-pipelined machine makes the sequential run, five steps an instruction, and ends where the run stands
still (R221 to R227). -/

namespace Sys2Proof.Machine

open Sys2Proof.Safety Sys2Proof.Claims

/-! ## Steps of a machine that runs on -/

/-- n steps from s pass through running machines only, to t, and log the errors es. -/
structure RunsOn (n : Nat) (s : State) (es : List (ErrCode × Word)) (t : State) : Prop where
  steps : stepN n s = .next t
  log : ∀ m, errorLog (n + m) s = es ++ errorLog m t
  running : ∀ r ≤ n, ∀ u, stepN r s = .next u → u.halted = false

/-- Over every machine, for the reason `coreRun_succ_of_next` gives. -/
theorem coreRun_add (M : Host.Core) (n m : Nat) (s t : M.State) (h : M.run n s = .next t) :
    M.run (n + m) s = M.run m t := by
  induction n generalizing s with
  | zero => cases h; rw [Nat.zero_add]
  | succ n ih =>
    obtain ⟨u, hu, ht⟩ := coreRun_succ_inv M n s t h
    rw [Nat.succ_add, coreRun_succ_of_next M (n + m) s u hu, ih u ht]

theorem stepN_add {n : Nat} {s t : State} (h : stepN n s = .next t) (m : Nat) :
    stepN (n + m) s = stepN m t := coreRun_add Sys2Proof.core n m s t h

theorem stepN_halted {s : State} (h : s.halted = true) (n : Nat) : stepN n s = .next s := by
  induction n with
  | zero => rfl
  | succ n ih => exact (stepN_succ_of_next n s s (step_halted s h)).trans ih

theorem errorLog_halted {s : State} (h : s.halted = true) (n : Nat) : errorLog n s = [] := by
  cases n <;> simp [errorLog, h]

theorem RunsOn.refl {s : State} (h : s.halted = false) : RunsOn 0 s [] s where
  steps := rfl
  log m := by rw [Nat.zero_add, List.nil_append]
  running r hr u hu := by
    obtain rfl := Nat.le_zero.1 hr
    cases hu
    exact h

theorem RunsOn.trans {n m : Nat} {s t u : State} {es fs : List (ErrCode × Word)} (h : RunsOn n s es t)
    (k : RunsOn m t fs u) : RunsOn (n + m) s (es ++ fs) u where
  steps := (stepN_add h.steps m).trans k.steps
  log l := by rw [Nat.add_assoc, h.log, k.log, List.append_assoc]
  running r hr v hv := by
    obtain hlt | hle := Nat.lt_or_ge n r
    · obtain ⟨d, rfl⟩ := Nat.exists_eq_add_of_lt hlt
      rw [Nat.add_assoc, stepN_add h.steps] at hv
      exact k.running _ (by omega) v hv
    · exact h.running r hle v hv

/-- One step of a running machine to a running machine. -/
theorem RunsOn.single {s t : State} {es : List (ErrCode × Word)} (hs : s.halted = false)
    (ht : t.halted = false) (h : step s = .next t) (hes : errorsOf t.trace = es) : RunsOn 1 s es t where
  steps := stepN_succ_of_next 0 s t h
  log m := by rw [Nat.add_comm, errorLog_succ hs h, hes]
  running r hr u hu := by
    obtain rfl | rfl := Nat.le_one_iff_eq_zero_or_eq_one.1 hr
    · cases hu; exact hs
    · rw [stepN_succ_of_next 0 s t h] at hu
      cases hu; exact ht

/-- A machine that is halted is later than all of them. -/
theorem RunsOn.lt_of_halted {n r : Nat} {s t u : State} {es : List (ErrCode × Word)} (h : RunsOn n s es t)
    (hu : stepN r s = .next u) (hh : u.halted = true) : n < r := by
  by_contra hle
  rw [h.running r (by omega) u hu] at hh
  cases hh

/-! ## The errors of a phase -/

/-- The errors of the phase that s stands at (R224, R225). -/
def phaseErrors (s : State) : List (ErrCode × Word) :=
  match s.phase with
  | .execute => divideErrorsOfD s
  | .memory => accessErrorsOfX s
  | .fetch | .decode | .writeback => []

theorem jumpAtWriteback_logs (i : Rec) (s : State) : Logs s (jumpAtWriteback i s) [] := by
  unfold jumpAtWriteback
  split <;> exact logs_kept rfl rfl

theorem branchAtExecute_logs (i : Rec) (s : State) : Logs s (branchAtExecute i s) [] := by
  unfold branchAtExecute
  split <;> exact logs_kept rfl rfl

/-- A phase logs the error of its stage and no other. -/
theorem PhaseResult.logs {s t : State} (h : PhaseResult s t) : Logs s t (phaseErrors s) := by
  cases h with
  | completed hp =>
    rw [phaseErrors, hp]
    exact logs_nil [.ifNone, .done] (List.append_assoc _ _ _) rfl rfl
  | fetched w hp => rw [phaseErrors, hp]; exact logs_nil [.ifAt s.pc] rfl rfl rfl
  | decodeError f c hp => rw [phaseErrors, hp]; exact logs_nil [.fatal c f.word] rfl rfl rfl
  | decoded f i hp =>
    rw [phaseErrors, hp]
    exact logs_nil [.id (newRec i f.fpc (s.seqCtr + 1))] rfl rfl rfl
  | executed i hp hD =>
    simp only [phaseErrors, hp, divideErrorsOfD, hD, Option.elim_some]
    have h := ((executeStage_logs i s).trans (logs_nil
      (t := ((executeStage i s).2.emit (.ex (executeStage i s).1)).moveToX (executeStage i s).1)
      [.ex (executeStage i s).1] rfl rfl rfl)).trans (branchAtExecute_logs (executeStage i s).1 _)
    rw [List.append_nil, List.append_nil] at h
    exact ⟨h.events, h.regs⟩
  | accessed i hp hX =>
    simp only [phaseErrors, hp, accessErrorsOfX, hX, Option.elim_some]
    have h := (memoryStage_logs i s).trans (logs_nil
      (t := (((memoryStage i s).emit (.mem i)).moveToW i).setPhase .writeback) [.mem i] rfl rfl rfl)
    rwa [List.append_nil] at h
  | retired i hp =>
    rw [phaseErrors, hp]
    obtain ⟨htr, hr⟩ := writeback_errors i s
    have h := (logs_nil (s := s) (t := (writeback i s).emit (.wb i)) [.wb i] (congrArg (· ++ _) htr) rfl hr).trans
      (jumpAtWriteback_logs i _)
    exact ⟨h.events, h.regs⟩

theorem errorsOf_phasedStep {s t : State} (hs : s.halted = false) (hp : s.params.cfgPipelined = false)
    (h : step s = .next t) : errorsOf t.trace = phaseErrors s := by
  rw [step_phased s hs hp] at h
  have hlogs := (phaseStep_result s t h).logs
  exact hlogs.trace

/-! ## The five phases of an instruction -/

theorem State.of_atRest {s t : State} (h : s.atRest = t.atRest) :
    s.seqCtr = t.seqCtr ∧ s.params = t.params ∧ s.bufB = t.bufB ∧ s.bufZ = t.bufZ := by
  refine ⟨?_, ?_, ?_, ?_⟩
  · show s.atRest.seqCtr = t.atRest.seqCtr; rw [h]
  · show s.atRest.params = t.atRest.params; rw [h]
  · show s.atRest.bufB = t.atRest.bufB; rw [h]
  · show s.atRest.bufZ = t.atRest.bufZ; rw [h]

theorem PhasedAt.runsOn {s t : State} {p q : Phase} {f f' : Option Fetched} {d x w d' x' w' : Option Rec}
    (h : PhasedAt s p f d x w) (ht : PhasedAt t q f' d' x' w') (hstep : step s = .next t) :
    RunsOn 1 s (phaseErrors s) t :=
  .single h.running ht.running hstep (errorsOf_phasedStep h.running h.phased hstep)

/-- Five steps from a FETCH phase run the instruction alone, and log its errors. -/
theorem runsOn_instr {v : State} {i : Instr} (h : ReadyToFetch v) (hi : v.nextInstr = some i) :
    RunsOn 5 v v.nextErrors (execResult i v) := by
  obtain ⟨hrun, hp, hph, hF, hD, hX, hW⟩ := h
  obtain ⟨w, hw, hd⟩ := (v.nextInstr_eq_some_iff i).1 hi
  have h0 : PhasedAt v .fetch none none none none := ⟨hrun, hp, hph, hF, hD, hX, hW⟩
  obtain ⟨s1, e1, h1, r1⟩ := step_fetch_phase v w h0 hw
  obtain ⟨s2, e2, h2, r2⟩ := step_decode_phase s1 _ i h1 hd
  obtain ⟨s3, e3, h3, r3⟩ := step_execute_phase s2 _ h2
  obtain ⟨s4, e4, h4, -⟩ := step_memory_phase s3 _ h3
  have hread := r2.trans (readOperands_congr_atRest s1 (v.setPc (v.pc + 4#32)) i r1)
  have hseq : s1.seqCtr = v.seqCtr := (State.of_atRest r1).1
  rw [hseq] at h2 h3 r3 h4
  obtain ⟨hrec, hexec⟩ := executeStage_congr_atRest (newRec i v.pc (v.seqCtr + 1)) s2 _ hread
  rw [hrec] at h3 r3
  have hbranch := r3.trans (branchAtExecute_congr_atRest _ _ _ hexec)
  have he2 : phaseErrors s2 = divideErrors i v.pc (v.operandB i) := by
    obtain ⟨-, -, hB, -⟩ := State.of_atRest hread
    rw [phaseErrors, h2.phase, divideErrorsOfD, h2.slotD, hB]
    rfl
  have he3 : phaseErrors s3 = accessErrors i v.params (execResult i v).bufZ := by
    obtain ⟨-, hpar, -, hZ⟩ := State.of_atRest hbranch
    rw [phaseErrors, h3.phase, accessErrorsOfX, h3.slotX, hZ, hpar, execResult_bufZ]
    simp [newRec, aloneExecuted]
  have hfour := (((h0.runsOn h1 e1).trans (h1.runsOn h2 e2)).trans (h2.runsOn h3 e3)).trans (h3.runsOn h4 e4)
  have e5 : step s4 = .next (execResult i v) := by
    have h5 := stepN_five_eq_exec v w i ⟨hrun, hp, hph, hF, hD, hX, hW⟩ hw hd
    rw [exec_eq_execResult, stepN_add hfour.steps 1] at h5
    obtain ⟨u, hu, h0⟩ := coreRun_succ_inv Sys2Proof.core 0 s4 _ h5
    cases h0
    exact hu
  have hlast := RunsOn.single h4.running
    (execResult_readyToFetch i v ⟨hrun, hp, hph, hF, hD, hX, hW⟩).1 e5 (errorsOf_phasedStep h4.running h4.phased e5)
  have hall := hfour.trans hlast
  rw [he2, he3] at hall
  simpa [State.nextErrors, hi, phaseErrors, hph, h1.phase, h4.phase] using hall

/-! ## The run -/

theorem runsOn_sequential {v0 : State} (h : ReadyToFetch v0) {k : Nat} (hk : Proceeds v0 k) :
    RunsOn (5 * k) v0 (errorsBefore v0 k) (sequential v0 k) := by
  induction k with
  | zero => exact .refl h.1
  | succ k ih =>
    obtain ⟨i, hi⟩ := Option.ne_none_iff_exists'.1 (hk k (Nat.lt_succ_self k))
    rw [Nat.mul_succ, errorsBefore_succ, sequential_succ v0 hi]
    exact (ih fun j hj => hk j (hj.trans (Nat.lt_succ_self k))).trans
      (runsOn_instr (sequential_readyToFetch v0 h k) hi)

/-- A run that halts stands still before. -/
theorem exists_stuck {v0 t : State} (h : ReadyToFetch v0) {n : Nat} (ht : stepN n v0 = .next t)
    (hh : t.halted = true) : ∃ N, Proceeds v0 N ∧ (sequential v0 N).nextInstr = none := by
  have hex : ∃ j, (sequential v0 j).nextInstr = none := by
    by_contra hnone
    have hall : Proceeds v0 n := fun j _ hj => hnone ⟨j, hj⟩
    have := (runsOn_sequential h hall).lt_of_halted ht hh
    omega
  classical
  exact ⟨Nat.find hex, fun j hj => Nat.find_min hex hj, Nat.find_spec hex⟩

/-- How the non-pipelined run from v0 has ended after n steps, in t. -/
inductive PhasedEnd (v0 : State) (n N : Nat) : State → Prop where
  | completed (hw : (sequential v0 N).ifetch (sequential v0 N).pc = none)
      (hlog : errorLog n v0 = errorsBefore v0 N) :
    PhasedEnd v0 n N ((sequential v0 N).beginStep.emit .ifNone).finish
  | failed (w : Word) (code : ErrCode) (hw : (sequential v0 N).ifetch (sequential v0 N).pc = some w)
      (hc : decodeError w = some code) :
    PhasedEnd v0 n N { sequential v0 N with
      pc := (sequential v0 N).pc + 4#32, phase := .decode, fatal := true, fatalCode := code.num,
      fatalInfo := w, trace := [.fatal code w] }

/-- A non-pipelined run that has halted has made the whole sequential run, up to where it stands still. -/
theorem phasedEnd_of_halted {v0 t : State} (h : ReadyToFetch v0) {n : Nat} (ht : stepN n v0 = .next t)
    (hh : t.halted = true) : ∃ N, Proceeds v0 N ∧ 5 * N ≤ n ∧ PhasedEnd v0 n N t := by
  obtain ⟨N, hN, hstuck⟩ := exists_stuck h ht hh
  have hrun := runsOn_sequential h hN
  obtain ⟨m, rfl⟩ := Nat.exists_eq_add_of_lt (hrun.lt_of_halted ht hh)
  have hready := sequential_readyToFetch v0 h N
  have ⟨hrunning, hp, hph, _⟩ := hready
  refine ⟨N, hN, by omega, ?_⟩
  rw [Nat.add_assoc, stepN_add hrun.steps] at ht
  obtain hw | ⟨w, code, hw, hc⟩ := State.nextInstr_eq_none_cases _ hstuck
  · have hstep := step_fetch_nothing _ hrunning hp hph hw
    have hhalt : ((sequential v0 N).beginStep.emit .ifNone).finish.halted = true := rfl
    rw [stepN_succ_of_next m _ _ hstep, stepN_halted hhalt] at ht
    cases ht
    refine .completed hw ?_
    rw [Nat.add_assoc, hrun.log, errorLog_succ hrunning hstep, errorLog_halted hhalt]
    exact List.append_nil _
  · have htwo := stepN_two_decodeError _ w code hready hw hc
    have hone := RunsOn.single (t := (fetchWord w (sequential v0 N).beginStep).setPhase .decode) hrunning
      hrunning (step_fetch_word _ w hrunning hp hph hw) rfl
    obtain ⟨d, rfl⟩ := Nat.exists_eq_add_of_lt (Nat.lt_of_succ_lt_succ (hone.lt_of_halted ht hh))
    rw [show 0 + d + 1 + 1 = 2 + d by omega, stepN_add htwo, stepN_halted (by simp [State.halted])] at ht
    cases ht
    exact .failed w code hw hc

end Sys2Proof.Machine
end

section
/-! PROOFS. The two modes agree (R228): the pipelined machine simulates the non-pipelined run from reset on. -/

namespace Sys2Proof.Machine

open Sys2Proof.Safety Sys2Proof.Claims

/-! ## The start -/

/-- Nothing is in flight, and the hazard controls are empty. -/
structure NothingInFlight (s : State) : Prop where
  slotF : s.slotF = none
  slotD : s.slotD = none
  slotX : s.slotX = none
  slotW : s.slotW = none
  slotS : s.slotS = none
  win : s.win = Window.empty
  ftab : s.ftab = []
  bubble : s.bubble = 0
  phase : s.phase = .fetch

/-- s holds what v0 holds, for all that the instructions can see. -/
structure SameStart (v0 s : State) : Prop where
  meaning : SameMeaning s.params v0.params
  imem : s.imem = v0.imem
  seqCtr : s.seqCtr = v0.seqCtr
  regs : s.regs = v0.regs
  data : s.data = v0.data
  stack : s.stack = v0.stack
  pc : s.pc = v0.pc

/-- Of a machine with nothing in flight the invariant says no more (R43). -/
theorem pipeInv_of_nothingInFlight {s : State} (h : NothingInFlight s) : PipeInv s := by
  obtain ⟨hF, hD, hX, hW, hS, hwin, hft, hb, hph⟩ := h
  have hnone : inFlight s = [] := by simp [inFlight, hD, hX, hW, hS]
  constructor
  case ftabEmpty => exact hft
  case phaseUnused => exact hph
  case programOrder => rw [hnone]; exact List.Pairwise.nil
  case counted | predictions => simp [hnone]
  all_goals simp [hF, hD, hX, hW, hS, hwin, hb, slotDest, Window.empty]

/-- A machine with nothing in flight simulates the run from a state that holds the same. -/
theorem simulates_of_nothingInFlight {v0 s : State} (hrun : RunsPipelined s) (h : NothingInFlight s)
    (hv : SameStart v0 s) : Simulates v0 s 0 := by
  have hpipe := pipeInv_of_nothingInFlight h
  obtain ⟨hF, hD, hX, hW, hS, -⟩ := h
  have hacc : accessedCount s 0 = 0 := by simp [accessedCount, hW]
  have hcount : decodedCount s 0 = 0 := by simp [decodedCount, executedCount, hacc, hD, hX, hS]
  refine ⟨hrun, hpipe, ?_, ?_⟩
  · constructor
    case meaning => exact hv.meaning
    case imem => exact hv.imem
    case proceeds => rw [hcount]; exact fun j hj => absurd hj (Nat.not_lt_zero j)
    case seqCtr => rw [hcount]; exact hv.seqCtr
    case regs => exact hv.regs
    case data => rw [hacc]; exact hv.data
    case stack => rw [hacc]; exact hv.stack
    all_goals simp [hD, hX, hW, hS]
  · constructor
    · intro _ _
      rw [hcount, State.nextDecode, hF]
      exact hv.pc
    · simp [hD, hS]

/-! ## The two modes -/

section
variable (p : Params) (im : IMem) (dm sm : Memory) (fwd pred : Bool)

theorem startOf_readyToFetch (bit : Bool) : ReadyToFetch (startOf p im dm sm false fwd pred bit) :=
  ⟨rfl, rfl, rfl, rfl, rfl, rfl, rfl⟩

/-- At reset the pipelined machine simulates the non-pipelined run. -/
theorem startOf_simulates (bit bit' : Bool) :
    Simulates (startOf p im dm sm false fwd pred bit') (startOf p im dm sm true fwd pred bit) 0 :=
  simulates_of_nothingInFlight ⟨rfl, rfl⟩ ⟨rfl, rfl, rfl, rfl, rfl, rfl, rfl, rfl, rfl⟩
    ⟨⟨rfl, rfl, rfl, rfl⟩, rfl, rfl, rfl, rfl, rfl, rfl⟩

/-- Every pipelined run comes to the end of the sequential run, where that has one. -/
theorem startOf_ends {N : Nat} (bit bit' : Bool)
    (hN : (sequential (startOf p im dm sm false fwd pred bit') N).nextInstr = none) :
    ∃ m u, stepN m (startOf p im dm sm true fwd pred bit) = .next u ∧
      EndsIn (startOf p im dm sm false fwd pred bit') (startOf p im dm sm true fwd pred bit) [] m u :=
  (startOf_simulates p im dm sm fwd pred bit bit').ends hN [] rfl

end

/-- The pipelined run completes exactly where the sequential run finds nothing to fetch. -/
theorem EndsIn.completed {v0 s u : State} {m N : Nat} (h : EndsIn v0 s [] m u) (hN : Proceeds v0 N)
    (hw : (sequential v0 N).ifetch (sequential v0 N).pc = none) :
    Completed v0 u N ∧ errorLog m s = errorsBefore v0 N := by
  obtain ⟨n, hn, hlog⟩ | ⟨c, w, code, hf⟩ := h
  · obtain rfl := stuck_unique v0 hN hn.proceeds (State.nextInstr_of_nothing hw)
      (State.nextInstr_of_nothing hn.nothing)
    exact ⟨hn, hlog⟩
  · obtain rfl := stuck_unique v0 hN hf.tracks.proceeds (State.nextInstr_of_nothing hw)
      (State.nextInstr_of_badWord hf.word hf.bad)
    have hword := hf.word
    rw [hw] at hword
    cases hword

/-- The pipelined run raises a decode error exactly where the sequential run comes to the bad word. -/
theorem EndsIn.failed {v0 s u : State} {m N : Nat} {L : List (ErrCode × Word)} {w : Word} {code : ErrCode}
    (h : EndsIn v0 s L m u) (hN : Proceeds v0 N)
    (hw : (sequential v0 N).ifetch (sequential v0 N).pc = some w) (hc : decodeError w = some code) :
    ∃ c, Failed v0 u c w code ∧ decodedCount u c = N := by
  have hstuck := State.nextInstr_of_badWord hw hc
  obtain ⟨n, hn, -⟩ | ⟨c, w', code', hf⟩ := h
  · obtain rfl := stuck_unique v0 hN hn.proceeds hstuck (State.nextInstr_of_nothing hn.nothing)
    rw [hn.nothing] at hw
    cases hw
  · have hcount := stuck_unique v0 hf.tracks.proceeds hN (State.nextInstr_of_badWord hf.word hf.bad) hstuck
    have hword := hf.word
    rw [hcount, hw] at hword
    cases hword
    have hbad := hf.bad
    rw [hc] at hbad
    cases hbad
    exact ⟨c, hf, hcount⟩

/-- Between two instructions the non-pipelined machine stands at the state of the sequential run, at a FETCH phase. -/
theorem sequential_between {v0 : State} (h : ReadyToFetch v0) {k N : Nat} (hN : Proceeds v0 N) (hk : k ≤ N) :
    stepN (5 * k) v0 = .next (sequential v0 k) ∧ (sequential v0 k).phase = .fetch ∧
      (sequential v0 k).seqCtr = v0.seqCtr + k := by
  have hproceeds : Proceeds v0 k := fun j hj => hN j (hj.trans_le hk)
  obtain ⟨-, -, hphase, -⟩ := sequential_readyToFetch v0 h k
  exact ⟨(runsOn_sequential h hproceeds).steps, hphase, sequential_seqCtr v0 hproceeds⟩

/-- Settles O50: both machines stop where the sequential run has nothing to fetch, with its registers, bytes, pc and
errors. -/
theorem pipelinedRunsAgreeWhenDone : Obligations.PipelinedRunsAgreeWhenDone := by
  intro p im dm sm fwd pred bit n t _ _ _ ht hdone
  obtain ⟨N, hN, -, hend⟩ := phasedEnd_of_halted (startOf_readyToFetch p im dm sm fwd pred false) ht
    (by simp [State.halted, hdone])
  cases hend with
  | completed hw hlog =>
    obtain ⟨m, u, hm, hends⟩ := startOf_ends p im dm sm fwd pred bit false (State.nextInstr_of_nothing hw)
    obtain ⟨h, hlog'⟩ := hends.completed hN hw
    exact ⟨m, u, hm, h.done, h.regs, h.data, h.stack, h.pc, hlog'.trans hlog.symm⟩
  | failed w code hw hc =>
    have hrunning := (sequential_readyToFetch _ (startOf_readyToFetch p im dm sm fwd pred false) N).1
    rw [((State.halted_eq_false_iff _).1 hrunning).1] at hdone
    cases hdone

/-- Settles O51: both machines come to the bad word of the sequential run. The pipelined one has then the instructions
in W and X to retire, and the one in X to access memory. -/
theorem pipelinedRunsAgreeWhenFatal : Obligations.PipelinedRunsAgreeWhenFatal := by
  intro p im dm sm fwd pred bit n t _ _ _ ht hfatal
  have hready := startOf_readyToFetch p im dm sm fwd pred false
  obtain ⟨N, hN, hle, hend⟩ := phasedEnd_of_halted hready ht (by simp [State.halted, hfatal])
  cases hend with
  | completed hw hlog =>
    have hrunning := (sequential_readyToFetch _ hready N).1
    have : (sequential (startOf p im dm sm false fwd pred false) N).fatal = true := hfatal
    rw [((State.halted_eq_false_iff _).1 hrunning).2] at this
    cases this
  | failed w code hw hc =>
    obtain ⟨m, u, hm, hends⟩ := startOf_ends p im dm sm fwd pred bit false (State.nextInstr_of_badWord hw hc)
    obtain ⟨c, h, hcount⟩ := hends.failed hN hw hc
    obtain ⟨hacc, hexec⟩ : accessedCount u c = c + held u.slotW ∧
        accessedCount u c + held u.slotX = N := by
      refine ⟨rfl, ?_⟩
      simpa [decodedCount, executedCount, h.emptyD, h.emptyS] using hcount
    refine ⟨m, u, hm, h.fatal, h.fatalCode, h.fatalInfo, ?_, ?_, h.emptyF, h.emptyD, h.emptyS, ?_, ?_⟩
    · rw [h.pc, hcount]
    · rw [h.tracks.seqCtr, hcount, sequential_seqCtr _ hN]
    · obtain ⟨hsteps, hphase, hseq⟩ := sequential_between hready hN (k := c) (by omega)
      exact ⟨5 * c, _, by omega, hsteps, hphase, by rw [hseq, sequential_seqCtr _ hN]; omega, h.tracks.regs⟩
    · obtain ⟨hsteps, hphase, hseq⟩ := sequential_between hready hN (k := accessedCount u c) (by omega)
      exact ⟨5 * accessedCount u c, _, by omega, hsteps, hphase,
        by rw [hseq, sequential_seqCtr _ hN]; omega, h.tracks.data, h.tracks.stack⟩

end Sys2Proof.Machine
end

section
/-! PROOFS. An instruction alone in `IMEM`: the pipelined machine retires it in the fifth step, with the effects it has
alone (R203 to R214, R228, R229). What follows it in the pipeline can only be itself again, as a jump or branch. -/

namespace Sys2Proof.Machine

open Sys2Proof.Safety Sys2Proof.Claims

/-! ## The error registers of an instruction run alone -/

theorem execResult_errorRegs (i : Instr) (v : State) : (execResult i v).errorRegs =
    (divideErrors i v.pc (v.operandB i) ++ accessErrors i v.params (execResult i v).bufZ).foldl logged
      v.errorRegs := by
  have hexec := executeStage_logs (newRec i v.pc (v.seqCtr + 1))
    (readOperands i (v.setPc (v.pc + 4#32)).countDecode)
  have hmem := (branchAtExecute_logs (aloneExecuted i v).1 (aloneExecuted i v).2).trans
    (memoryStage_logs (aloneExecuted i v).1 _)
  have hall := (hexec.trans hmem).regs
  have hstart : (readOperands i (v.setPc (v.pc + 4#32)).countDecode).errorRegs = v.errorRegs := by
    simp [State.errorRegs]
  have hparams : (aloneExecuted i v).2.params = v.params := by simp [aloneExecuted]
  have hwb : (execResult i v).errorRegs = (aloneAccessed i v).errorRegs := by
    rw [execResult, (jumpAtWriteback_logs _ _).regs]
    exact (writeback_errors _ _).2
  rw [hstart, List.nil_append, aloneExecuted_instr, branchAtExecute_params, branchAtExecute_bufZ, hparams,
    ← execResult_bufZ] at hall
  rw [hwb]
  exact hall

/-! ## Jumps and branches -/

/-- i is a jump or a branch: the next address need not follow it. -/
def IsControl (i : Instr) : Prop := i.isJump = true ∨ i.isBranch = true

section
variable {i : Instr} (h : IsControl i)
include h

theorem IsControl.noErrors (a b z : Word) (p : Params) :
    divideErrors i a b = [] ∧ accessErrors i p z = [] := by
  cases i
  case beq | bne | blt | bge | jal | jalr => exact ⟨rfl, rfl⟩
  all_goals cases h with | inl h => cases h | inr h => cases h

theorem IsControl.memoryStage_spaces (r : Rec) (s : State) (hr : r.instr = i) :
    (memoryStage r s).data = s.data ∧ (memoryStage r s).stack = s.stack := by
  obtain ⟨j, a, q, p, tk⟩ := r
  obtain rfl : j = i := hr
  cases j
  case beq | bne | blt | bge | jal | jalr => exact ⟨rfl, rfl⟩
  all_goals cases h with | inl h => cases h | inr h => cases h

theorem IsControl.execResult_spaces (v : State) :
    (execResult i v).data = v.data ∧ (execResult i v).stack = v.stack := by
  obtain ⟨hd, hk⟩ := h.memoryStage_spaces (aloneExecuted i v).1
    (branchAtExecute (aloneExecuted i v).1 (aloneExecuted i v).2) (aloneExecuted_instr i v)
  rw [execResult_data, execResult_stack]
  exact ⟨hd.trans (by simp [aloneExecuted]), hk.trans (by simp [aloneExecuted])⟩

end

theorem execResult_pc_of_not_control (i : Instr) (v : State) (h : ¬IsControl i) :
    (execResult i v).pc = v.pc + 4#32 := by
  obtain ⟨hj, hb⟩ := not_or.1 h
  rw [execResult_pc, if_neg hj, if_neg fun hbr => hb hbr.1]

theorem ne_add_four (a : Word) : a + 4#32 ≠ a := by
  intro h
  have := congrArg BitVec.toNat h
  simp at this
  omega

/-! ## The only word -/

/-- The only word to be fetched lies at pc and spells i. -/
structure OnlyInstr (p : State) (i : Instr) : Prop where
  next : p.nextInstr = some i
  only : ∀ a, a ≠ p.pc → p.ifetch a = none

section
variable {p : State} {i : Instr} (h : OnlyInstr p i)
include h

theorem OnlyInstr.pc_of_word {k : Nat} {w : Word}
    (hw : (sequential p k).ifetch (sequential p k).pc = some w) : (sequential p k).pc = p.pc := by
  by_contra hne
  rw [sequential_ifetch, h.only _ hne] at hw
  cases hw

theorem OnlyInstr.nextInstr_eq {k : Nat} {w : Word}
    (hw : (sequential p k).ifetch (sequential p k).pc = some w) : (sequential p k).nextInstr = some i := by
  rw [State.nextInstr, h.pc_of_word hw, sequential_ifetch]
  exact h.next

/-- What runs a second time is i again, and a jump or branch: anything else would have moved pc on. -/
theorem OnlyInstr.isControl_of_later {k : Nat} {j : Instr} (hj : (sequential p (k + 1)).nextInstr = some j) :
    j = i ∧ IsControl i := by
  obtain ⟨w, hw, -⟩ := (State.nextInstr_eq_some_iff _ j).1 hj
  rw [h.nextInstr_eq hw] at hj
  cases hj
  refine ⟨rfl, ?_⟩
  by_contra hnot
  have hstop : ∀ m, (sequential p (m + 1)).pc = p.pc + 4#32 ∧ (sequential p (m + 1)).nextInstr = none := by
    intro m
    induction m with
    | zero =>
      have hpc : (sequential p 1).pc = p.pc + 4#32 := by
        rw [sequential_succ p (k := 0) h.next]
        exact execResult_pc_of_not_control i p hnot
      refine ⟨hpc, State.nextInstr_of_nothing ?_⟩
      rw [hpc, sequential_ifetch]
      exact h.only _ (ne_add_four _)
    | succ m ih =>
      rw [sequential_succ_stuck p ih.2]
      exact ih
  have := h.pc_of_word hw
  rw [(hstop k).1] at this
  exact ne_add_four _ this

/-- After the first instruction no byte changes and no error is logged. -/
theorem OnlyInstr.settled (m : Nat) : (sequential p (m + 1)).data = (execResult i p).data ∧
    (sequential p (m + 1)).stack = (execResult i p).stack ∧ errorsBefore p (m + 1) = p.nextErrors := by
  induction m with
  | zero =>
    rw [sequential_succ p (k := 0) h.next, errorsBefore_succ]
    exact ⟨rfl, rfl, rfl⟩
  | succ m ih =>
    rw [errorsBefore_succ, State.nextErrors]
    cases hn : (sequential p (m + 1)).nextInstr with
    | none => rw [sequential_succ_stuck p hn, Option.elim_none, List.append_nil]; exact ih
    | some j =>
      obtain ⟨rfl, hc⟩ := h.isControl_of_later hn
      obtain ⟨hd, hk⟩ := hc.execResult_spaces (sequential p (m + 1))
      rw [sequential_succ p hn, hd, hk, Option.elim_some, (hc.noErrors _ _ 0#32 p.params).1,
        (hc.noErrors 0#32 0#32 _ _).2, List.append_nil, List.append_nil]
      exact ih

end

end Sys2Proof.Machine
end

section
/-! PROOFS. The five steps of an instruction alone in `IMEM`: fetch, decode, execute, memory and writeback, none of
them ending the run before the last (R203 to R214, R229). -/

namespace Sys2Proof.Machine

open Sys2Proof.Safety Sys2Proof.Claims

/-! ## A step that runs on -/

/-- The machine simulates the run from v0, and since v0 has logged L. -/
structure Follows (v0 s : State) (c : Nat) (L : List (ErrCode × Word)) : Prop where
  sim : Simulates v0 s c
  soFar : LoggedSoFar v0 s c L
  errorRegs : s.errorRegs = L.foldl logged v0.errorRegs

/-- One step of s goes through, to t, by its front and its back. -/
structure GoesThrough (s e : State) (fl : Bool) (t : State) : Prop where
  front : Front s e fl
  frontInv : FrontInv e fl
  back : BackResult e fl t

/-- The slot holds i, fetched from a. -/
def Carries (i : Instr) (a : Word) (slot : Option Rec) : Prop := ∃ r, slot = some r ∧ r.instr = i ∧ r.fpc = a

theorem Follows.errorRegs_of_step {v0 s t : State} {c : Nat} {L : List (ErrCode × Word)}
    (h : Follows v0 s c L) (ht : pipelinedStep s = .next t) :
    t.errorRegs = (L ++ errorsOf t.trace).foldl logged v0.errorRegs := by
  rw [errorRegs_pipelinedStep ht, h.errorRegs, List.foldl_append]

section
variable {p : State} {i : Instr} (h : OnlyInstr p i)
include h

/-- The one word decodes, so no step raises a decode error. -/
theorem OnlyInstr.not_failed {t : State} {c : Nat} {w : Word} {code : ErrCode} : ¬Failed p t c w code := by
  intro hf
  have hnone := State.nextInstr_of_badWord hf.word hf.bad
  rw [h.nextInstr_eq hf.word] at hnone
  cases hnone

/-- A step goes through, as long as an instruction is in D or X or none has been executed yet. -/
theorem OnlyInstr.goesThrough {s : State} {c : Nat} {L : List (ErrCode × Word)} (hs : Follows p s c L)
    (hgo : s.slotX ≠ none ∨ s.slotD ≠ none ∨ executedCount s c = 0) :
    ∃ t e fl, step s = .next t ∧ Follows p t (c + held s.slotW) (L ++ errorsOf t.trace) ∧
      GoesThrough s e fl t := by
  obtain ⟨t, ht, hres⟩ := hs.sim.step
  have hstep := (step_pipelined s hs.sim.running.1 hs.sim.running.2).symm.trans ht
  cases hres with
  | running front sim =>
    obtain ⟨e, fl, hfront, he, hback⟩ := front
    exact ⟨t, e, fl, ht, ⟨sim, hs.soFar.step hs.sim.tracks hfront hback.frame hstep,
      hs.errorRegs_of_step hstep⟩, ⟨hfront, he, hback⟩⟩
  | completed n hn hX hD hc =>
    exfalso
    obtain hX' | hD' | h0 := hgo
    · exact hX' hX
    · exact hD' hD
    · rw [h0] at hn
      have hnone := State.nextInstr_of_nothing hc.nothing
      rw [hn, show (sequential p 0).nextInstr = some i from h.next] at hnone
      cases hnone
  | failed w code hf => exact absurd hf h.not_failed

end

/-! ## Fetch and decode -/

theorem BackResult.of_fetch {e t : State} {fl : Bool} (h : BackResult e fl t) (he : FrontInv e fl)
    (hF : e.slotF = none) (hS : e.slotS = none) (hX : e.slotX = none) (f : Fetched)
    (hw : e.fetchedAt e.pc = some f) : t.slotF = some f ∧ t.slotD = none ∧ t.slotS = none := by
  cases h with
  | decodeError _ _ hF' | parked _ _ _ _ hF' | entered _ _ _ hF' => rw [hF] at hF'; cases hF'
  | waited _ _ hS' | promoted _ _ hS' => rw [hS] at hS'; cases hS'
  | withheld _ hfl => exact absurd hX (he.flushedX hfl)
  | fetched => exact ⟨hw, he.emptyD, hS⟩
  | completed _ _ _ hnone => rw [State.fetchedAt, hnone] at hw; cases hw

/-- A word in F enters D where nothing is in X or W (R209, R210). -/
theorem BackResult.of_word {e t : State} {fl : Bool} (h : BackResult e fl t) (f : Fetched) (i : Instr)
    (hF : e.slotF = some f) (hd : decode f.word = .ok i) (hX : e.slotX = none) (hW : e.slotW = none)
    (hS : e.slotS = none) : Carries i f.fpc t.slotD := by
  cases h with
  | decodeError f' c hF' hc =>
    rw [hF] at hF'
    cases hF'
    simp [Machine.decodeError, hd] at hc
  | parked f' j n tr hF' hd' hneed hpos =>
    exfalso
    have hdep : ∀ slot, slot = none → ¬DependsOnSlot j slot := by
      rintro _ rfl ⟨r, -, hr⟩
      cases hr
    cases hf : e.fwdOn with
    | false =>
      have := (hneed.plain_zero hf).2 ⟨hdep _ hX, hdep _ hW⟩
      omega
    | true =>
      have h1 := hneed.forward_bound hf
      exact hdep _ hX ((hneed.forward_one hf).1 (by omega)).1
  | entered f' j tr hF' hd' =>
    rw [hF] at hF'
    cases hF'
    rw [hd] at hd'
    cases hd'
    exact ⟨_, rfl, rfl, rfl⟩
  | waited _ _ hS' | promoted _ _ hS' => rw [hS] at hS'; cases hS'
  | withheld _ _ hF' | fetched _ _ hF' => rw [hF] at hF'; cases hF'
  | completed _ _ hd' => rw [State.drained_iff, hF] at hd'; simp at hd'

/-! ## The stages -/

section
variable {s e t : State} {fl : Bool} (h : GoesThrough s e fl t)
include h

theorem GoesThrough.slotW : t.slotW = s.slotX := h.back.frame.slotW.trans h.front.slotW

theorem GoesThrough.slotX : t.slotX = s.slotD.map fun i => (executeStage i s).1 :=
  h.back.frame.slotX.trans h.front.slotX

theorem GoesThrough.carries_X {i : Instr} {a : Word} (hD : Carries i a s.slotD) : Carries i a t.slotX := by
  obtain ⟨r, hr, rfl, rfl⟩ := hD
  rw [h.slotX, hr]
  exact ⟨_, rfl, by simp, by simp⟩

end

theorem Carries.ne_none {i : Instr} {a : Word} {slot : Option Rec} (h : Carries i a slot) : slot ≠ none := by
  obtain ⟨r, rfl, -⟩ := h
  exact Option.some_ne_none r

theorem executedCount_zero {s : State} (hX : s.slotX = none) (hW : s.slotW = none) : executedCount s 0 = 0 := by
  simp [executedCount, accessedCount, hX, hW]

section
variable {p : State} {i : Instr} (h : OnlyInstr p i) (hp : Follows p p 0 []) (hfree : NothingInFlight p)
include h hp hfree

/-- With nothing in flight two steps bring the one instruction into D, and nothing into X and W. -/
theorem OnlyInstr.decoded : ∃ s L, stepN 2 p = .next s ∧ Follows p s 0 L ∧ Carries i p.pc s.slotD ∧
    s.slotX = none ∧ s.slotW = none := by
  obtain ⟨hF, hD, hX, hW, hS, -⟩ := hfree
  obtain ⟨w, hw, hd⟩ := (State.nextInstr_eq_some_iff p i).1 h.next
  obtain ⟨s1, e, fl, e1, h1, g1⟩ := h.goesThrough hp (.inr (.inr (executedCount_zero hX hW)))
  have hX1 : s1.slotX = none := by rw [g1.slotX, hD]; rfl
  have hW1 : s1.slotW = none := g1.slotW.trans hX
  rw [hW] at h1
  obtain ⟨hF1, hD1, hS1⟩ : s1.slotF = some { word := w, fpc := p.pc } ∧ s1.slotD = none ∧ s1.slotS = none := by
    obtain ⟨-, hpc, hFe⟩ := g1.front.of_emptyD hD
    have hXe : e.slotX = none := by rw [g1.front.slotX, hD]; rfl
    refine g1.back.of_fetch g1.frontInv (hFe.trans hF) (g1.front.slotS.trans hS) hXe _ ?_
    rw [State.fetchedAt, g1.front.ifetch_eq, hpc, hw]
    rfl
  obtain ⟨s2, e', fl', e2, h2, g2⟩ := h.goesThrough h1 (.inr (.inr (executedCount_zero hX1 hW1)))
  rw [hW1] at h2
  have hXe : e'.slotX = none := by rw [g2.front.slotX, hD1]; rfl
  refine ⟨s2, _, ?_, h2, ?_, by rw [g2.slotX, hD1]; rfl, g2.slotW.trans hX1⟩
  · rw [stepN_succ_of_next 1 p s1 e1, stepN_succ_of_next 0 s1 s2 e2]
    rfl
  · exact g2.back.of_word { word := w, fpc := p.pc } i ((g2.front.of_emptyD hD1).2.2.trans hF1) hd hXe
      (g2.front.slotW.trans hX1) (g2.front.slotS.trans hS1)

/-- Two more steps bring it through X into W. -/
theorem OnlyInstr.accessed : ∃ s L, stepN 4 p = .next s ∧ Follows p s 0 L ∧ Carries i p.pc s.slotW := by
  obtain ⟨s2, L, e2, h2, hD2, hX2, hW2⟩ := h.decoded hp hfree
  obtain ⟨s3, _, _, e3, h3, g3⟩ := h.goesThrough h2 (.inr (.inl hD2.ne_none))
  have hX3 := g3.carries_X hD2
  obtain ⟨s4, _, _, e4, h4, g4⟩ := h.goesThrough h3 (.inl hX3.ne_none)
  rw [g3.slotW, hX2, hW2] at h4
  refine ⟨s4, _, ?_, h4, g4.slotW ▸ hX3⟩
  rw [stepN_add (n := 2) e2 2, stepN_succ_of_next 1 s2 s3 e3, stepN_succ_of_next 0 s3 s4 e4]
  rfl

end

/-- The registers, the bytes and the error registers of t are those of u. -/
structure SameEffects (t u : State) : Prop where
  regs : t.regs = u.regs
  data : t.data = u.data
  stack : t.stack = u.stack
  errorRegs : t.errorRegs = u.errorRegs

section
variable {p : State} {i : Instr} (h : OnlyInstr p i)
include h

theorem OnlyInstr.execResult_errorRegs :
    (execResult i p).errorRegs = p.nextErrors.foldl logged p.errorRegs := by
  rw [Machine.execResult_errorRegs, State.nextErrors, h.next, Option.elim_some]

/-- What has followed the first instruction into X is a jump or branch, with no error to log. -/
theorem OnlyInstr.accessErrorsOfX_later {t : State} {c : Nat} (ht : Tracks p t (c + 1)) :
    accessErrorsOfX t = [] := by
  rw [accessErrorsOfX]
  cases hX : t.slotX with
  | none => rfl
  | some j =>
    have hlater : accessedCount t (c + 1) = (c + held t.slotW) + 1 := Nat.succ_add_eq_add_succ c _
    obtain ⟨⟨hnext, -⟩, -⟩ := ht.inX j hX
    rw [hlater] at hnext
    obtain ⟨hj, hc⟩ := h.isControl_of_later hnext
    rw [Option.elim_some, hj]
    exact (hc.noErrors 0#32 0#32 _ _).2

/-- Once the instruction has retired, the effects are its own: those that follow it change no byte and log no
error. -/
theorem OnlyInstr.sameEffects_of_running {t : State} {L : List (ErrCode × Word)} (ht : Follows p t 1 L) :
    SameEffects t (execResult i p) := by
  have htr := ht.sim.tracks
  obtain ⟨hdata, hstack, -⟩ := h.settled (held t.slotW)
  obtain ⟨-, -, herrors⟩ := h.settled (held t.slotW + held t.slotX)
  have hacc : accessedCount t 1 = held t.slotW + 1 := Nat.add_comm _ _
  have hexec : executedCount t 1 = held t.slotW + held t.slotX + 1 := by rw [executedCount, hacc]; omega
  have hlog := ht.soFar
  rw [LoggedSoFar, h.accessErrorsOfX_later (c := 0) htr, List.append_nil, hexec, herrors] at hlog
  refine ⟨?_, ?_, ?_, ?_⟩
  · rw [htr.regs, sequential_succ p (k := 0) h.next]
    rfl
  · rw [htr.data, hacc, hdata]
  · rw [htr.stack, hacc, hstack]
  · rw [ht.errorRegs, hlog, h.execResult_errorRegs]

theorem OnlyInstr.sameEffects_of_completed {s t : State} {L : List (ErrCode × Word)} (hs : Follows p s 0 L)
    (ht : pipelinedStep s = .next t) (hc : Completed p t 1) (hn : executedCount s 0 = 1)
    (hX : s.slotX = none) (hD : s.slotD = none) : SameEffects t (execResult i p) := by
  have hfirst : sequential p 1 = execResult i p := sequential_succ p (k := 0) h.next
  obtain ⟨-, -, herrors⟩ := h.settled 0
  obtain ⟨hnone, hall⟩ := hs.soFar.last hX hD ht
  refine ⟨by rw [hc.regs, hfirst], by rw [hc.data, hfirst], by rw [hc.stack, hfirst], ?_⟩
  rw [hs.errorRegs_of_step ht, hnone, List.append_nil, hall, hn, herrors, h.execResult_errorRegs]

/-- The step that retires the instruction leaves its effects, whether it completes the run or not. -/
theorem OnlyInstr.sameEffects_of_writeback {s t : State} {L : List (ErrCode × Word)} (hs : Follows p s 0 L)
    (hW : Carries i p.pc s.slotW) (ht : step s = .next t) : SameEffects t (execResult i p) := by
  have hstep := (step_pipelined s hs.sim.running.1 hs.sim.running.2).symm.trans ht
  have hone : 0 + held s.slotW = 1 := by rw [held_pos hW.ne_none]
  obtain ⟨t', ht', hres⟩ := hs.sim.step
  rw [ht] at ht'
  cases ht'
  cases hres with
  | running front sim =>
    obtain ⟨e, fl, hfront, -, hback⟩ := front
    have hlog := hs.soFar.step hs.sim.tracks hfront hback.frame hstep
    rw [hone] at sim hlog
    exact h.sameEffects_of_running ⟨sim, hlog, hs.errorRegs_of_step hstep⟩
  | completed n hn hX hD hc =>
    have hexec : executedCount s 0 = 1 := by rw [executedCount, hX]; exact hone
    rw [hn, hexec] at hc
    exact h.sameEffects_of_completed hs hstep hc hexec hX hD
  | failed w code hf => exact absurd hf h.not_failed

/-- The fifth step from a machine with nothing in flight retires the one instruction. -/
theorem OnlyInstr.retired (hp : Follows p p 0 []) (hfree : NothingInFlight p) : ∃ t r es,
    stepN 5 p = .next t ∧ SameEffects t (execResult i p) ∧ t.trace = .wb r :: es ∧ r.instr = i ∧
      r.fpc = p.pc := by
  obtain ⟨s, L, e4, hs, hW⟩ := h.accessed hp hfree
  obtain ⟨t, ht, -⟩ := hs.sim.step
  have heffects := h.sameEffects_of_writeback hs hW ht
  obtain ⟨r, hr, hinstr, hpc⟩ := hW
  obtain ⟨es, htrace⟩ :=
    trace_pipelinedStep ((step_pipelined s hs.sim.running.1 hs.sim.running.2).symm.trans ht) r hr
  refine ⟨t, r, es, ?_, heffects, htrace, hinstr, hpc⟩
  rw [stepN_add (n := 4) e4 1, stepN_succ_of_next 0 s t ht]
  rfl

end

/-! ## The placed word -/

theorem encode_placed (i : Instr) : BitVec.ofNat 32 ((encode i).toNat % 2 ^ 32) = encode i := by
  rw [Nat.mod_eq_of_lt (encode i).isLt, BitVec.ofNat_toNat, BitVec.setWidth_eq]

/-- Placed in an empty `IMEM`, the word of i is the only one (R61, R62). -/
theorem withFetchWord_onlyInstr (s : State) (i : Instr) (hi : i.WellFormed) (hempty : s.imem = []) :
    OnlyInstr (s.withFetchWord 32 (encode i).toNat) i where
  next := by
    have hw := State.withFetchWord_ifetch s 32 (encode i).toNat
    rw [encode_placed] at hw
    exact State.nextInstr_of_word hw (decode_encode i hi)
  only a ha := by
    have hne : a.toNat ≠ s.pc.toNat := fun h => ha (BitVec.eq_of_toNat_eq h)
    refine (State.ifetch_eq_none_iff _ a).2 (.inr ?_)
    rw [State.withFetchWord_imem, IMem.lookup_insert_ne _ _ _ _ hne, hempty]
    rfl

theorem withFetchWord_nothingInFlight (s : State) (n w : Nat) : NothingInFlight (s.withFetchWord n w) :=
  ⟨rfl, rfl, rfl, rfl, rfl, rfl, rfl, rfl, rfl⟩

/-- A machine with nothing in flight follows the run that it begins. -/
theorem follows_self {p : State} (hrun : RunsPipelined p) (hfree : NothingInFlight p) : Follows p p 0 [] where
  sim := simulates_of_nothingInFlight hrun hfree ⟨sameMeaning_of_eq rfl, rfl, rfl, rfl, rfl, rfl, rfl⟩
  soFar := by
    rw [LoggedSoFar, executedCount_zero hfree.slotX hfree.slotW, accessErrorsOfX, hfree.slotX]
    rfl
  errorRegs := rfl

/-- Settles O54: the placed word is the only one, and the machine follows the run of it. -/
theorem placedWordRetiresInFivePipelinedSteps : Obligations.PlacedWordRetiresInFivePipelinedSteps := by
  rintro s p i hi hempty hpipe rfl
  have hfree := withFetchWord_nothingInFlight s 32 (encode i).toNat
  obtain ⟨t, r, es, ht, heffects, htrace, hr, hpc⟩ :=
    (withFetchWord_onlyInstr s i hi hempty).retired (follows_self ⟨rfl, hpipe⟩ hfree) hfree
  obtain ⟨hseen, hcode, hinfo⟩ : t.errSeen = _ ∧ t.errCode = _ ∧ t.errInfo = _ := by
    simpa [State.errorRegs] using heffects.errorRegs
  exact ⟨t, _, ht, exec_eq_execResult i _, fun r => State.readReg_congr heffects.regs r, heffects.data,
    heffects.stack, ⟨hseen, hcode, hinfo⟩, r, es, htrace, hr, hpc⟩

end Sys2Proof.Machine
end

section
/-! PROOFS. Data hazards: the stall count of the instruction decoded in a step, and the operands of the instruction
that a step leaves in D (R209 to R211, R251 to R261). -/

namespace Sys2Proof.Machine

open Sys2Proof.Safety Sys2Proof.Claims

/-! ## Sub-steps 1 to 3 -/

/-- The execute stage of a branch records its outcome (R170 to R174). -/
theorem executeStage_taken (i : Rec) (s : State) (hbr : i.instr.isBranch = true) :
    ∃ tk, branchOutcome i.instr s.bufA s.bufB = some tk ∧ (executeStage i s).1.taken = some tk := by
  obtain ⟨j, a, q, p, o⟩ := i
  cases j
  case bne => exact ⟨_, rfl, by simp [executeStage, executeBne, executeBranch, condNe, bne, beq_eq_decide]⟩
  case beq | blt | bge => exact ⟨_, rfl, rfl⟩
  all_goals cases hbr

/-- Where D holds no jalr and no branch against its prediction, F is not flushed (R207). -/
theorem Front.slotF_of_noFlush {s e : State} {fl : Bool} (h : Front s e fl) (hn : NoFlush s) :
    e.slotF = s.slotF := by
  have hfl : fl = false := by
    rw [h.flush_eq]
    cases hD : s.slotD with
    | none => rfl
    | some i =>
      obtain ⟨hjalr, hpred⟩ := hn i hD
      cases hbr : i.instr.isBranch with
      | false => simp [Rec.mispredicted, hjalr, hbr]
      | true =>
        obtain ⟨tk, htk, htaken⟩ := executeStage_taken i s hbr
        simp [Rec.mispredicted, hjalr, hbr, htaken, hpred tk htk]
  rw [h.slotF, hfl]
  rfl

/-- The index-3 producer of a decode is the instruction that was in D before the step (R251). -/
theorem Front.dependsOnX_iff {s e : State} {fl : Bool} (h : Front s e fl) (i : Instr) :
    DependsOnSlot i e.slotX ↔ DependsOnSlot i s.slotD := by
  simp only [DependsOnSlot, h.slotX, slotDest_executeStage]

theorem Front.loadInX_iff {s e : State} {fl : Bool} (h : Front s e fl) (b : Bool) :
    (∀ p, e.slotX = some p → p.instr.isLoad = b) ↔ ∀ p, s.slotD = some p → p.instr.isLoad = b := by
  rw [h.slotX]
  cases s.slotD <;> simp

/-! ## The stall count -/

theorem StallNeed.plain_one {s : State} {i : Instr} {n : Nat} (h : StallNeed s i n) (hf : s.fwdOn = false)
    (hX : ¬DependsOnSlot i s.slotX) (hW : DependsOnSlot i s.slotW) : n = 1 := by
  have hne2 : n ≠ 2 := fun h2 => hX ((h.plain_two hf).1 h2)
  have hne0 : n ≠ 0 := fun h0 => ((h.plain_zero hf).1 h0).2 hW
  have := h.bound
  omega

theorem StallNeed.forward_zero {s : State} {i : Instr} {n : Nat} (h : StallNeed s i n) (hf : s.fwdOn = true)
    (hno : ¬(DependsOnSlot i s.slotX ∧ ∀ p, s.slotX = some p → p.instr.isLoad = true)) : n = 0 := by
  have hne1 : n ≠ 1 := fun h1 => hno ((h.forward_one hf).1 h1)
  have := h.forward_bound hf
  omega

theorem exists_of_dependsOnSlot {i : Instr} {slot : Option Rec} (h : DependsOnSlot i slot) :
    ∃ p, slot = some p := by
  obtain ⟨r, -, hr⟩ := h
  cases slot with
  | none => cases hr
  | some p => exact ⟨p, rfl⟩

/-- What detection finds after sub-steps 1 to 3 is the stall count read off the state before the step. -/
theorem StallNeed.eq_stallCount {s e : State} {fl : Bool} {i : Instr} {m n : Nat} (hneed : StallNeed e i m)
    (h : Front s e fl) (hcount : StallCount s i n) : m = n := by
  simp only [StallCount, ← h.fwdOn_eq, ← h.dependsOnX_iff, ← h.loadInX_iff, ← h.slotW] at hcount
  obtain ⟨plainX, plainW, plainNone, forwardLoad, forwardOther, forwardNone⟩ := hcount
  cases hf : e.fwdOn with
  | false =>
    by_cases hX : DependsOnSlot i e.slotX
    · rw [(hneed.plain_two hf).2 hX, plainX hf hX]
    · by_cases hW : DependsOnSlot i e.slotW
      · rw [hneed.plain_one hf hX hW, plainW hf hX hW]
      · rw [(hneed.plain_zero hf).2 ⟨hX, hW⟩, plainNone hf hX hW]
  | true =>
    by_cases hX : DependsOnSlot i e.slotX
    · obtain ⟨p, hp⟩ := exists_of_dependsOnSlot hX
      have hall : ∀ b, p.instr.isLoad = b → ∀ q, e.slotX = some q → q.instr.isLoad = b := by simp [hp]
      cases hl : p.instr.isLoad with
      | true => rw [(hneed.forward_one hf).2 ⟨hX, hall _ hl⟩, forwardLoad hf hX (hall _ hl)]
      | false =>
        rw [forwardOther hf hX (hall _ hl)]
        exact hneed.forward_zero hf fun ⟨_, hload⟩ => by simp [hload p hp] at hl
    · rw [forwardNone hf hX]
      exact hneed.forward_zero hf fun hload => hX hload.1

/-- The two ways of a step with a good word in F (R209, R211). -/
theorem BackResult.of_decoded {e t : State} {fl : Bool} (h : BackResult e fl t) (he : BackReady e fl)
    {f : Fetched} {i : Instr} (hF : e.slotF = some f) (hd : decode f.word = .ok i) :
    t.seqCtr = e.seqCtr + 1 ∧ ∃ n, StallNeed e i n ∧
      (n = 0 → t.slotD = some (decodedRec i f.fpc e) ∧ t.slotS = none ∧ t.bubble = 0 ∧
        t.win.w4 = i.effDest) ∧
      (0 < n → t.slotS = some (decodedRec i f.fpc e) ∧ t.slotD = none ∧ t.slotF = none ∧
        t.bubble = n - 1 ∧ t.win.w4 = none ∧ Event.stall n ∈ t.trace ∧ Event.bubble ∈ t.trace) := by
  have hS := he.slotS_of_word hF
  cases h with
  | decodeError f' c hF' hc =>
    cases hF.symm.trans hF'
    simp [Machine.decodeError, hd] at hc
  | parked f' j n tr hF' hd' hneed hpos hstall hbubble =>
    cases hF.symm.trans hF'
    cases hd.symm.trans hd'
    exact ⟨rfl, n, hneed, fun h0 => absurd h0 hpos.ne',
      fun _ => ⟨rfl, he.emptyD, rfl, rfl, rfl, hstall, hbubble⟩⟩
  | entered f' j tr hF' hd' hneed =>
    cases hF.symm.trans hF'
    cases hd.symm.trans hd'
    exact ⟨rfl, 0, hneed, fun _ => ⟨rfl, hS, he.bubble_of_emptyS hS, rfl⟩, fun hpos => absurd hpos (by simp)⟩
  | waited _ _ hS' | promoted _ _ hS' => rw [hS] at hS'; cases hS'
  | withheld _ _ hF' | fetched _ _ hF' => rw [hF] at hF'; cases hF'
  | completed _ _ hd' => rw [State.drained_iff, hF] at hd'; simp at hd'

/-- Settles O43: decode stalls by detection's need, which is the stall count of the state before the step. -/
theorem stallCounts : Obligations.StallCounts := by
  intro s f i n hinv hrun hnf hF hd hcount
  obtain ⟨t, ht, hres⟩ := step_result s hinv hrun
  cases hres with
  | lastWriteback _ _ hF' => rw [hF] at hF'; cases hF'
  | through e fl t hfront hready hback =>
    have heF : e.slotF = some f := (hfront.slotF_of_noFlush hnf).trans hF
    obtain ⟨hseq, m, hneed, henter, hpark⟩ := hback.of_decoded hready heF hd
    obtain rfl : m = n := hneed.eq_stallCount hfront hcount
    rw [hfront.seqCtr] at hseq
    exact ⟨t, decodedRec i f.fpc e, ht, rfl, rfl, congrArg (· + 1) hfront.seqCtr, hseq, henter, hpark⟩

/-! ## The operands in D -/

theorem State.operandA_eq (s : State) (i : Instr) : s.operandA i = i.rs1.elim 0#32 s.readReg := by
  unfold State.operandA State.readSrc
  cases i.rs1 <;> rfl

theorem State.operandB_eq (s : State) (i : Instr) : s.operandB i = i.rs2.elim i.imm s.readReg := by
  cases i <;> rfl

/-- The register read and made current is the one program order requires (R260). -/
theorem OperandsReady.currentOperand_eq_bypassed {e : State} {i : Instr} (h : OperandsReady e i) (r : Reg)
    (hsrc : i.rs1 = some r ∨ i.rs2 = some r) : currentOperand e (some r) (e.readReg r) = bypassed e r := by
  by_cases h0 : r = 0#5
  · simp [currentOperand, forwarded, bypassed, h0]
  · have hreads : Reads i r := ⟨h0, hsrc⟩
    cases hf : e.fwdOn with
    | true => simp [currentOperand, forwarded, bypassed, hf, h0]
    | false =>
      obtain ⟨hX, hW⟩ := h.plain hf
      have hX' : slotDest e.slotX ≠ some r := fun hd => hX ⟨r, hreads, hd⟩
      have hW' : slotDest e.slotW ≠ some r := fun hd => hW ⟨r, hreads, hd⟩
      simp [currentOperand, bypassed, hf, h0, hX', hW']

theorem BackFrame.bypassed_eq {e t : State} (h : BackFrame e t) (r : Reg) : bypassed t r = bypassed e r := by
  simp only [bypassed, h.slotX, h.slotW, h.bufZ, h.bufY, State.readReg_congr h.regs r]

/-- An instruction that sub-steps 4 to 8 leave in D was decoded or promoted there, with its operands ready and made
current (R209, R216, R217). -/
theorem BackResult.of_slotD {e t : State} {fl : Bool} (h : BackResult e fl t) (he : FrontInv e fl) {i : Rec}
    (hD : t.slotD = some i) : OperandsReady e i.instr ∧
      t.bufA = currentOperand e i.instr.rs1 (e.operandA i.instr) ∧
      t.bufB = currentOperand e i.instr.rs2 (e.operandB i.instr) := by
  cases h with
  | entered _ _ _ _ _ hneed => cases hD; exact ⟨hneed.operandsReady, rfl, rfl⟩
  | promoted _ _ hS hb => cases hD; exact ⟨operandsReady_of_parked he hS hb, rfl, rfl⟩
  | decodeError | parked | waited | withheld | fetched | completed => cases he.emptyD.symm.trans hD

/-- Settles O45: D is entered with ready operands, which forwarding has made current. -/
theorem operandsAreCurrent : Obligations.OperandsAreCurrent := by
  intro s t i hinv hrun hstep _ hD
  obtain ⟨t', ht', hres⟩ := step_result s hinv hrun
  cases hstep.symm.trans ht'
  cases hres with
  | lastWriteback _ _ _ hD' => cases hD'.symm.trans (by simpa using hD)
  | through e fl t hfront hready hback =>
    have hframe := hback.frame
    obtain ⟨hops, hA, hB⟩ := hback.of_slotD (hfront.frontInv (hinv.pipelined hrun.1 hrun.2)) hD
    rw [State.operandA_eq] at hA
    rw [State.operandB_eq] at hB
    rw [hframe.slotX, hframe.slotW, hframe.fwdOn_eq]
    refine ⟨fun r hr => ?_, fun hr => ?_, fun r hr => ?_, fun hr => ?_, fun hdep => ?_, fun hdep => ?_⟩
    · rw [hr] at hA
      exact hA.trans ((hops.currentOperand_eq_bypassed r (.inl hr)).trans (hframe.bypassed_eq r).symm)
    · rw [hA, hr]; simp [currentOperand, forwarded]
    · rw [hr] at hB
      exact hB.trans ((hops.currentOperand_eq_bypassed r (.inr hr)).trans (hframe.bypassed_eq r).symm)
    · rw [hB, hr]; simp [currentOperand, forwarded]
    · have hf : e.fwdOn = true := by
        by_contra hf
        exact (hops.plain (by simpa using hf)).1 hdep
      exact ⟨hf, hops.forward hf hdep⟩
    · by_contra hf
      exact (hops.plain (by simpa using hf)).2 hdep

end Sys2Proof.Machine
end

section
/-! PROOFS. Every step keeps the invariant (R21, R39, R43, R221, R262, R289): the base in either mode, the part of the
non-pipelined mode by its phases, the part of the pipelined mode by `StepResult`. -/

namespace Sys2Proof.Machine

open Sys2Proof.Safety Sys2Proof.Claims

/-! ## The base -/

theorem PhaseResult.slot0 {s t : State} (h : PhaseResult s t) : t.regs[0] = s.regs[0] := by
  cases h with
  | completed | fetched | decodeError | decoded => rfl
  | executed | accessed | retired => simp

theorem pipelinedStep_slot0 {s t : State} (h : pipelinedStep s = .next t) : t.regs[0] = s.regs[0] := by
  obtain ⟨i, -, -, -, -, -, -, hs⟩ | ⟨e, fl, he, hs⟩ := pipelinedStep_cases s <;> rw [hs] at h
  · cases h
    simp
  · rw [(pipelineBack_kept fl e t h).regs, he.slot0]

/-- No step writes the slot of x0 (R21). -/
theorem step_slot0 {s t : State} (hs : s.halted = false) (h : step s = .next t) : t.regs[0] = s.regs[0] := by
  cases hp : s.params.cfgPipelined with
  | true =>
    rw [step_pipelined s hs hp] at h
    exact pipelinedStep_slot0 h
  | false =>
    rw [step_phased s hs hp] at h
    exact (phaseStep_result s t h).slot0

/-- The memory stage keeps the canonical form of both spaces (R63, R67). -/
theorem accessedSpace_wf {s : State} (h : Base s) (g : Region) : Memory.wf (accessedSpace s g) = true := by
  unfold accessedSpace
  cases accessing s with
  | none => exact space_wf_of_base h g
  | some i =>
    obtain ⟨hd, hk⟩ := memoryStage_wf i s h.dataWf h.stackWf
    cases g <;> assumption

/-- What a step does to the error registers is to log errors. -/
theorem step_errorRegs {s t : State} (hs : s.halted = false) (h : step s = .next t) :
    ∃ es : List (ErrCode × Word), t.errorRegs = es.foldl logged s.errorRegs := by
  cases hp : s.params.cfgPipelined with
  | true =>
    rw [step_pipelined s hs hp] at h
    exact ⟨_, errorRegs_pipelinedStep h⟩
  | false =>
    rw [step_phased s hs hp] at h
    exact ⟨_, (phaseStep_result s t h).logs.regs⟩

/-- After errors have been logged the error registers hold the last of them (R301). -/
theorem foldl_logged_of_getLast {es : List (ErrCode × Word)} {x : ErrCode × Word} (h : es.getLast? = some x)
    (r : Bool × BitVec 8 × Word) : es.foldl logged r = (true, x.1.num, x.2) := by
  obtain ⟨ys, rfl⟩ := List.getLast?_eq_some_iff.1 h
  rw [List.foldl_append]
  rfl

/-- Of an error that is not yet seen the registers hold nothing (R37, R44). -/
theorem errorRegs_reset {s t : State} {es : List (ErrCode × Word)} (h : t.errorRegs = es.foldl logged s.errorRegs)
    (hs : s.errSeen = false → s.errCode = 0#8 ∧ s.errInfo = 0#32) (ht : t.errSeen = false) :
    t.errCode = 0#8 ∧ t.errInfo = 0#32 := by
  cases hlast : es.getLast? with
  | none =>
    rw [List.getLast?_eq_none_iff.1 hlast] at h
    obtain ⟨hseen, hcode, hinfo⟩ : t.errSeen = s.errSeen ∧ t.errCode = s.errCode ∧ t.errInfo = s.errInfo := by
      simpa [State.errorRegs] using h
    rw [hcode, hinfo]
    exact hs (hseen.symm.trans ht)
  | some x =>
    rw [foldl_logged_of_getLast hlast] at h
    cases ht.symm.trans (congrArg Prod.fst h)

/-- The fatal registers are written only with `fatal` (R302). -/
def FatalKept (s t : State) : Prop :=
  t.fatal = false → t.fatalCode = s.fatalCode ∧ t.fatalInfo = s.fatalInfo

theorem PhaseResult.fatalKept {s t : State} (h : PhaseResult s t) : FatalKept s t := by
  intro hft
  cases h with
  | decodeError => cases hft
  | completed | fetched | decoded => exact ⟨rfl, rfl⟩
  | executed | accessed | retired => simp

theorem BackResult.fatalKept {e t : State} {fl : Bool} (h : BackResult e fl t) : FatalKept e t := by
  intro hft
  cases h with
  | decodeError => cases hft
  | parked | entered | waited | promoted | withheld | fetched | completed => exact ⟨rfl, rfl⟩

theorem StepResult.fatalKept {s t : State} (h : StepResult s t) : FatalKept s t := by
  cases h with
  | lastWriteback => intro _; simp
  | through e fl _ front _ back =>
    intro hft
    rw [← front.fatalCode, ← front.fatalInfo]
    exact back.fatalKept hft

/-- A step keeps the base, given that it keeps the fatal registers. -/
theorem base_of_step {s t : State} (h : Base s) (hs : s.halted = false) (hstep : step s = .next t)
    (hfatal : FatalKept s t) : Base t where
  zeroSlot := (step_slot0 hs hstep).trans h.zeroSlot
  imemWf := by rw [(step_fetchKept s t hstep).imem]; exact h.imemWf
  dataWf := by
    have hspace := step_space s t hs hstep .data
    rw [State.space] at hspace
    rw [hspace]
    exact accessedSpace_wf h .data
  stackWf := by
    have hspace := step_space s t hs hstep .stack
    rw [State.space] at hspace
    rw [hspace]
    exact accessedSpace_wf h .stack
  oneTerminal := (step_statusKept s t hstep).oneTerminal h.oneTerminal
  noFatal hft := by
    obtain ⟨hcode, hinfo⟩ := hfatal hft
    rw [hcode, hinfo]
    exact h.noFatal (s.halted_eq_false_iff.1 hs).2
  noError := by
    obtain ⟨es, hes⟩ := step_errorRegs hs hstep
    exact errorRegs_reset hes h.noError

/-! ## The non-pipelined mode -/

/-- The slot that the phase needs is full, so it answers a next state (R221). -/
theorem phaseStep_answers {s : State} (h : PhaseInv s) : ∃ t, phaseStep s = .next t := by
  have hslots := h.slots
  cases hp : s.phase <;> simp only [SlotsOfPhase, hp, Option.ne_none_iff_exists'] at hslots
  case fetch =>
    rw [phaseStep_fetch s hp]
    cases hw : s.beginStep.ifetch s.beginStep.pc with
    | none => exact ⟨_, phaseFetch_nothing _ hw⟩
    | some w => exact ⟨_, phaseFetch_word _ w hw⟩
  case decode =>
    obtain ⟨⟨f, hF⟩, -⟩ := hslots
    rw [phaseStep_decode s hp]
    cases hd : decode f.word with
    | ok i => exact ⟨_, phaseDecode_ok _ f i hF hd⟩
    | unknownOpcode => exact ⟨_, phaseDecode_unknownOpcode _ f hF hd⟩
    | unknownFunct => exact ⟨_, phaseDecode_unknownFunct _ f hF hd⟩
  case execute =>
    obtain ⟨-, ⟨i, hD⟩, -⟩ := hslots
    rw [phaseStep_execute s hp]
    exact ⟨_, phaseExecute_some _ i hD⟩
  case memory =>
    obtain ⟨-, -, ⟨i, hX⟩, -⟩ := hslots
    rw [phaseStep_memory s hp]
    exact ⟨_, phaseMemory_some _ i hX⟩
  case writeback =>
    obtain ⟨-, -, -, i, hW⟩ := hslots
    rw [phaseStep_writeback s hp]
    exact ⟨_, phaseWriteback_some _ i hW⟩

theorem phaseInv_beginStep {s : State} (h : PhaseInv s) : PhaseInv s.beginStep :=
  ⟨h.winEmpty, h.ftabEmpty, h.noBubble, h.predReset, h.notParked, h.fetchAhead, h.slots⟩

/-- What the phases never write (R221, R262, R289). -/
structure PipelineUnused (s t : State) : Prop where
  win : t.win = s.win
  ftab : t.ftab = s.ftab
  bubble : t.bubble = s.bubble
  predBit : t.predBit = s.predBit
  slotS : t.slotS = s.slotS

theorem PhaseResult.pipelineUnused {s t : State} (h : PhaseResult s t) : PipelineUnused s t := by
  cases h with
  | completed | fetched | decodeError | decoded => constructor <;> rfl
  | executed | accessed | retired => constructor <;> simp

/-- A phase empties the slot it consumes and fills the next one (R222 to R226). -/
theorem PhaseResult.slotsOfPhase {s t : State} (h : PhaseResult s t) (hs : SlotsOfPhase s) (ht : t.halted = false) :
    SlotsOfPhase t := by
  cases h with
  | completed => simp [State.halted] at ht
  | decodeError => simp [State.halted] at ht
  | fetched w hp | decoded f i hp | executed i hp | accessed i hp | retired i hp =>
    simp only [SlotsOfPhase, hp] at hs
    simp [SlotsOfPhase, fetchWord, phaseDecodeInstr, hs]

/-- Only the FETCH phase leaves a word in F, the one before pc (R222). -/
theorem PhaseResult.fetchAhead {s t : State} (h : PhaseResult s t) (hs : SlotsOfPhase s) (f : Fetched)
    (hF : t.slotF = some f) : t.pc = f.fpc + 4#32 ∧ t.ifetch f.fpc = some f.word := by
  cases h with
  | fetched w hp hw => cases hF; exact ⟨rfl, hw⟩
  | decodeError | decoded => cases hF
  | completed hp | executed i hp | accessed i hp | retired i hp =>
    simp only [SlotsOfPhase, hp] at hs
    simp [hs] at hF

theorem PhaseResult.phaseInv {s t : State} (h : PhaseResult s t) (hs : PhaseInv s) (ht : t.halted = false) :
    PhaseInv t where
  winEmpty := h.pipelineUnused.win.trans hs.winEmpty
  ftabEmpty := h.pipelineUnused.ftab.trans hs.ftabEmpty
  noBubble := h.pipelineUnused.bubble.trans hs.noBubble
  predReset := h.pipelineUnused.predBit.trans hs.predReset
  notParked := h.pipelineUnused.slotS.trans hs.notParked
  fetchAhead := h.fetchAhead hs.slots
  slots := h.slotsOfPhase hs.slots ht

/-- Only a fetch that finds nothing completes a non-pipelined run (R222). -/
theorem PhaseResult.doneEnded {s t : State} (h : PhaseResult s t) (hs : s.done = false) (ht : t.done = true) :
    t.ifetch t.pc = none := by
  cases h with
  | completed _ hw => exact hw
  | fetched | decodeError | decoded => cases hs.symm.trans ht
  | executed | accessed | retired => simp [hs] at ht

theorem inv_of_phased {s t : State} (h : Inv s) (hs : s.halted = false) (hp : s.params.cfgPipelined = false)
    (hstep : phaseStep s = .next t) : Inv t := by
  have hres := phaseStep_result s t hstep
  have hstep' := (step_phased s hs hp).trans hstep
  have hpt : t.params.cfgPipelined = false := by rw [(step_fetchKept s t hstep').params, hp]
  have hphase : t.halted = false → PhaseInv t := hres.phaseInv (phaseInv_beginStep (h.phased hs hp))
  exact ⟨base_of_step h.base hs hstep' hres.fatalKept, hres.doneEnded (s.halted_eq_false_iff.1 hs).1,
    fun _ hp' => absurd (hpt.symm.trans hp') Bool.false_ne_true, fun ht _ => hphase ht⟩

/-! ## The pipelined mode, and both -/

theorem inv_of_pipelined {s t : State} (h : Inv s) (hrun : RunsPipelined s) (hstep : step s = .next t)
    (hres : StepResult s t) : Inv t := by
  obtain ⟨hs, hp⟩ := hrun
  have hpt : t.params.cfgPipelined = true := by rw [(step_fetchKept s t hstep).params, hp]
  refine ⟨base_of_step h.base hs hstep hres.fatalKept, fun hdone => ?_,
    fun ht _ => hres.pipeInv (h.pipelined hs hp) ht, fun _ hp' => absurd (hp'.symm.trans hpt) Bool.false_ne_true⟩
  obtain ⟨-, -, -, -, -, -, hw, -⟩ := (doneOnlyWhenDrained s t h ⟨hs, hp⟩ hstep).1 hdone
  exact hw

/-- Settles O25: a halted machine stands still; a running one answers, and keeps its mode's part and the base. -/
theorem stepKeepsInvariant : Obligations.StepKeepsInvariant := by
  intro s h
  cases hs : s.halted with
  | true => exact ⟨s, step_halted s hs, h⟩
  | false =>
    cases hp : s.params.cfgPipelined with
    | true =>
      obtain ⟨t, hstep, hres⟩ := step_result s h ⟨hs, hp⟩
      exact ⟨t, hstep, inv_of_pipelined h ⟨hs, hp⟩ hstep hres⟩
    | false =>
      obtain ⟨t, hstep⟩ := phaseStep_answers (h.phased hs hp)
      exact ⟨t, (step_phased s hs hp).trans hstep, inv_of_phased h hs hp hstep⟩

/-! ## Reset -/

/-- The reset state of canonical images meets the invariant, in either mode. -/
theorem State.resetWith_inv (p : Params) {im : IMem} {dm sm : Memory} (him : IMem.wf im = true)
    (hdm : Memory.wf dm = true) (hsm : Memory.wf sm = true) : Inv (State.resetWith p im dm sm) where
  base :=
    { zeroSlot := by simp [State.resetWith]
      imemWf := him
      dataWf := hdm
      stackWf := hsm
      oneTerminal := by simp [State.resetWith]
      noFatal _ := ⟨rfl, rfl⟩
      noError _ := ⟨rfl, rfl⟩ }
  doneEnded h := by cases h
  pipelined _ _ := pipeInv_of_nothingInFlight (by constructor <;> rfl)
  phased _ _ := by
    constructor
    case fetchAhead => intro f hF; cases hF
    case slots => exact ⟨rfl, rfl, rfl, rfl⟩
    all_goals rfl

/-- Settles O24: `State.reset` has empty images, which are canonical. -/
theorem invariantAtReset : Obligations.InvariantAtReset :=
  ⟨State.resetWith_inv Params.reference rfl rfl rfl, fun p _ _ _ him hdm hsm => State.resetWith_inv p him hdm hsm⟩

end Sys2Proof.Machine
end

section
/-! PROOFS. Control hazards at execute: branch resolution, the flush of a misprediction and of a jalr, and the writers
of the sticky bit (R207, R284 to R288). -/

namespace Sys2Proof.Machine

open Sys2Proof.Safety Sys2Proof.Claims

/-! ## The branch in its execute stage -/

theorem isBranch_of_branchOutcome {i : Instr} {a b : Word} {tk : Bool} (h : branchOutcome i a b = some tk) :
    i.isBranch = true := by
  cases i
  case beq | bne | blt | bge => rfl
  all_goals cases h

theorem Instr.isJalr_of_isBranch (i : Instr) (h : i.isBranch = true) : i.isJalr = false := by
  have hjump := Instr.isJump_of_isBranch i h
  rw [Instr.isJump_eq, Bool.or_eq_false_iff] at hjump
  exact hjump.2

theorem Rec.isBranch_of_mispredicted {i : Rec} (h : i.mispredicted = true) : i.instr.isBranch = true := by
  rw [Rec.mispredicted, Bool.and_eq_true] at h
  exact h.1

section
variable {i : Rec} {s : State} {tk : Bool} (h : branchOutcome i.instr s.bufA s.bufB = some tk)
include h

/-- The outcome is recorded, and nothing else of the record changes (R170). -/
theorem executeStage_branch : (executeStage i s).1 = { i with taken := some tk } := by
  obtain ⟨tk', htk', htaken⟩ := executeStage_taken i s (isBranch_of_branchOutcome h)
  cases h.symm.trans htk'
  obtain ⟨_, _, _, _, _, _, _, hshape⟩ := executeStage_shape i s
  rw [hshape] at htaken ⊢
  simpa using htaken

theorem executeStage_mispredicted : (executeStage i s).1.mispredicted = (tk != i.predTaken) := by
  rw [executeStage_branch h]
  simp [Rec.mispredicted, isBranch_of_branchOutcome h, bne, Option.some_beq_some]

theorem executeStage_outcomePc_eq :
    (executeStage i s).1.outcomePc = if tk = true then i.fpc + i.instr.imm else i.fpc + 4#32 := by
  rw [executeStage_branch h]
  simp [Rec.outcomePc, Rec.target, Rec.next]

end

/-- A flushed branch has an outcome against its prediction. -/
theorem branchOutcome_of_mispredicted {i : Rec} {s : State} (h : (executeStage i s).1.mispredicted = true) :
    ∃ tk, branchOutcome i.instr s.bufA s.bufB = some tk ∧ tk ≠ i.predTaken := by
  have hbr := Rec.isBranch_of_mispredicted h
  rw [executeStage_rec_instr] at hbr
  obtain ⟨tk, htk, -⟩ := executeStage_taken i s hbr
  rw [executeStage_mispredicted htk] at h
  exact ⟨tk, htk, by simpa using h⟩

/-! ## The four cases of resolution -/

theorem resolveControl_agreed {i : Rec} (s : State) (hm : i.mispredicted = false) (hj : i.instr.isJalr = false) :
    resolveControl i s = (s, false) := by
  simp [resolveControl, hm, hj]

theorem resolveControl_mispredicted {i : Rec} (s : State) (hm : i.mispredicted = true) :
    resolveControl i s = ((s.updatePredictor i).flushTo i.outcomePc, true) := by
  simp [resolveControl, hm]

/-- Settles O38: agreement leaves the execute stage's state as it is, and disagreement flushes to the outcome. -/
theorem resolutionTable : Obligations.ResolutionTable := by
  intro s i tk hD htk
  have hrec := executeStage_branch htk
  have htaken : (executeStage i s).1.taken = some tk := by rw [hrec]
  have hm := executeStage_mispredicted htk
  have hpc := executeStage_outcomePc_eq htk
  have hj : (executeStage i s).1.instr.isJalr = false := by
    rw [executeStage_rec_instr]
    exact Instr.isJalr_of_isBranch _ (isBranch_of_branchOutcome htk)
  have hon : (((executeStage i s).2.emit (.ex (executeStage i s).1)).moveToX (executeStage i s).1).predOn =
      s.predOn := by simp [State.predOn]
  rw [subExecute_some s i hD]
  by_cases hagree : tk = i.predTaken
  · rw [resolveControl_agreed _ (hm.trans (by simp [hagree])) hj]
    refine ⟨by simp [hrec], by simp, fun _ => by simp, fun hp ht => ?_, fun hp ht => ?_⟩ <;>
      simp [hagree, hp] at ht
  · rw [resolveControl_mispredicted _ (hm.trans (by simp [hagree]))]
    refine ⟨by simp [hrec], by simp, fun h => absurd h hagree, fun _ ht => ?_, fun _ ht => ?_⟩ <;>
      simp [hpc, htaken, ht, hon]

/-! ## The sticky bit -/

/-- A pipelined step writes the sticky bit only by the flush of a branch with the predictor enabled (R286). -/
theorem pipelinedStep_predBit {s t : State} (h : pipelinedStep s = .next t) :
    t.predBit = s.slotD.elim s.predBit fun i =>
      if (executeStage i s).1.mispredicted && s.predOn then (executeStage i s).1.taken == some true
      else s.predBit := by
  obtain ⟨i, -, -, hD, -, -, -, hs⟩ | ⟨e, fl, he, hs⟩ := pipelinedStep_cases s <;> rw [hs] at h
  · cases h
    simp [hD]
  · rw [(pipelineBack_kept fl e t h).predBit, he.predBit]

/-- The bit after the resolution of a branch: its outcome, where that was not predicted and the predictor is enabled. -/
theorem pipelinedStep_predBit_of_branch {s t : State} (h : pipelinedStep s = .next t) {i : Rec} {tk : Bool}
    (hD : s.slotD = some i) (htk : branchOutcome i.instr s.bufA s.bufB = some tk) :
    t.predBit = if tk ≠ i.predTaken ∧ s.predOn = true then tk else s.predBit := by
  rw [pipelinedStep_predBit h, hD, Option.elim_some, executeStage_mispredicted htk, executeStage_branch htk]
  simp

theorem step_predBit_phased {s t : State} (hs : s.halted = false) (hp : s.params.cfgPipelined = false)
    (h : step s = .next t) : t.predBit = s.predBit := by
  rw [step_phased s hs hp] at h
  exact (phaseStep_result s t h).pipelineUnused.predBit

/-- The bit changes only by a misprediction with the predictor enabled, in either mode (R286). -/
theorem misprediction_of_predBit_ne {s t : State} (hs : s.halted = false) (h : step s = .next t)
    (hne : t.predBit ≠ s.predBit) :
    s.predOn = true ∧ ∃ i tk, s.slotD = some i ∧ branchOutcome i.instr s.bufA s.bufB = some tk ∧
      tk ≠ i.predTaken ∧ t.predBit = tk := by
  cases hp : s.params.cfgPipelined with
  | false => exact absurd (step_predBit_phased hs hp h) hne
  | true =>
    rw [step_pipelined s hs hp] at h
    have hbit := pipelinedStep_predBit h
    cases hD : s.slotD with
    | none =>
      rw [hD] at hbit
      exact absurd hbit hne
    | some i =>
      rw [hD, Option.elim_some] at hbit
      by_cases hm : (executeStage i s).1.mispredicted = true ∧ s.predOn = true
      · obtain ⟨tk, htk, hdiff⟩ := branchOutcome_of_mispredicted hm.1
        have hbit' := pipelinedStep_predBit_of_branch h hD htk
        rw [if_pos ⟨hdiff, hm.2⟩] at hbit'
        exact ⟨hm.2, i, tk, rfl, htk, hdiff, hbit'⟩
      · rw [if_neg (by simpa using hm)] at hbit
        exact absurd hbit hne

/-- Settles O37: on agreement the bit has the outcome already, since the prediction was sampled from it. -/
theorem predictorBitWrittenOnlyOnMisprediction : Obligations.PredictorBitWrittenOnlyOnMisprediction := by
  refine ⟨fun s t hs h hne => misprediction_of_predBit_ne hs h hne, ?_⟩
  intro s t hinv ⟨hs, hp⟩ h hon i tk hD htk
  rw [step_pipelined s hs hp] at h
  rw [pipelinedStep_predBit_of_branch h hD htk]
  split
  · rfl
  · next hagree =>
    have hsampled := (hinv.pipelined hs hp).sampled i (.inl hD) (isBranch_of_branchOutcome htk) hon
    have htk' : tk = i.predTaken := by simpa [hon] using hagree
    rw [htk', hsampled]

/-! ## The flush -/

/-- With F flushed and S empty sub-steps 4 to 8 only shift the window and withhold the fetch (R213). -/
theorem BackResult.of_flush {e t : State} {fl : Bool} (h : BackResult e fl t) (he : BackReady e fl)
    (hfl : fl = true) : ∃ tr, t = { e with win := e.win.shift, trace := tr } ∧ Event.ifWithheld ∈ tr := by
  obtain ⟨hF, hS⟩ := he.flushed hfl
  cases h with
  | decodeError _ _ hF' | parked _ _ _ _ hF' | entered _ _ _ hF' => cases hF.symm.trans hF'
  | waited _ _ hS' | promoted _ _ hS' => cases hS.symm.trans hS'
  | withheld tr _ _ _ hwithheld => exact ⟨tr, rfl, hwithheld⟩
  | fetched _ hfl' | completed _ hfl' => cases hfl.symm.trans hfl'

/-- A step whose execute stage flushes: the state that sub-steps 1 to 3 leave, with the window shifted and the fetch
withheld (R207, R213). -/
theorem step_of_flush {s : State} {i : Rec} (hinv : Inv s) (hrun : RunsPipelined s) (hD : s.slotD = some i)
    (hflush : ((executeStage i s).1.mispredicted || i.instr.isJalr) = true) :
    ∃ e tr, Front s e true ∧ step s = .next { e with win := e.win.shift, trace := tr } ∧
      Event.flush ∈ tr ∧ Event.ifWithheld ∈ tr := by
  obtain ⟨hs, hp⟩ := hrun
  rw [step_pipelined s hs hp]
  obtain ⟨_, -, -, hD', -⟩ | ⟨e, fl, hfront, hstep⟩ := pipelinedStep_cases s
  · cases hD'.symm.trans hD
  · obtain rfl : fl = true := by rw [hfront.flush_eq, hD]; exact hflush
    have hready := hfront.backReady (hinv.pipelined hs hp)
    obtain ⟨t, hback, hres⟩ := pipelineBack_result e true hready
    obtain ⟨tr, rfl, hwithheld⟩ := hres.of_flush hready rfl
    obtain ⟨new, htr, -⟩ := (pipelineBack_kept true e _ hback).trace
    have hfl : Event.flush ∈ tr := by
      rw [show tr = e.trace ++ new from htr]
      exact List.mem_append_left _ (hfront.flushed rfl)
    exact ⟨e, tr, hfront, hstep.trans hback, hfl, hwithheld⟩

/-- Settles O39: the flush leaves the outcome in pc, and the rest as the branch's move to X left it. -/
theorem mispredictionFlushes : Obligations.MispredictionFlushes := by
  intro s i tk hinv hrun hD htk hdiff
  have hm : (executeStage i s).1.mispredicted = true := by
    rw [executeStage_mispredicted htk]
    simpa using hdiff
  obtain ⟨e, tr, hfront, hstep, hflush, hwithheld⟩ := step_of_flush hinv hrun hD (by rw [hm]; rfl)
  have hpc := hfront.pc
  have hbit := hfront.predBit
  have hX := hfront.slotX
  rw [hD, Option.elim_some, hm, if_pos rfl, executeStage_outcomePc_eq htk] at hpc
  rw [hD, Option.elim_some, hm, executeStage_branch htk] at hbit
  rw [hD, Option.map_some, executeStage_branch htk] at hX
  refine ⟨_, hstep, hpc, hfront.slotF, ?_, hX, hfront.slotD, hfront.slotS, hfront.ftab, hfront.bubble, hflush,
    hwithheld⟩
  simpa using hbit

theorem executeStage_jalr_bufZ (i : Rec) (s : State) (h : i.instr.isJalr = true) :
    (executeStage i s).2.bufZ = i.fpc + 4#32 := by
  obtain ⟨j, a, q, p, tk⟩ := i
  cases j
  case jalr => rfl
  all_goals cases h

/-- Settles O40: a jalr is no branch, so its flush leaves the bit alone. -/
theorem jalrRedirectsAtExecute : Obligations.JalrRedirectsAtExecute := by
  intro s i hinv hrun hD hj
  have hbr : i.instr.isBranch = false := by
    cases hbr : i.instr.isBranch with
    | false => rfl
    | true => cases (Instr.isJalr_of_isBranch _ hbr).symm.trans hj
  have hrec : (executeStage i s).1 = i := executeStage_nonbranch i s hbr
  have hm : (executeStage i s).1.mispredicted = false := by rw [hrec, Rec.mispredicted, hbr]; rfl
  obtain ⟨e, tr, hfront, hstep, -, hwithheld⟩ := step_of_flush hinv hrun hD (by rw [hm, hj]; rfl)
  have hpc := hfront.pc
  have hbit := hfront.predBit
  have hX := hfront.slotX
  have hM := hfront.bufM
  have hZ := hfront.bufZ
  simp only [hD, Option.elim_some, hm, hj, Bool.false_and, Bool.false_eq_true, if_false, if_true] at hpc hbit
  rw [hD, Option.map_some, hrec] at hX
  rw [hD, Option.elim_some] at hM hZ
  refine ⟨_, hstep, ?_, hfront.slotF, hbit, hX, hfront.slotD, hM.trans hpc.symm, ?_, hwithheld⟩
  · rw [hpc, executeStage_jalr_bufM i s hj]
    exact s.jalrTarget_toNat
  · exact hZ.trans (executeStage_jalr_bufZ i s hj)

end Sys2Proof.Machine
end

section
/-! PROOFS. Control hazards at decode: the redirect of a taken prediction, the fetch that goes on otherwise, and what a
decode error leaves behind (R207 to R213, R281 to R283, R287, R291, R302). -/

namespace Sys2Proof.Machine

open Sys2Proof.Safety Sys2Proof.Claims

/-! ## A word that is not flushed -/

theorem State.predictsTaken_iff (s : State) (i : Instr) : s.predictsTaken i = true ↔
    i.isJal = true ∨ (i.isBranch = true ∧ s.predOn = true ∧ s.predBit = true) := by
  simp [State.predictsTaken, and_assoc]

/-- The bit is written only with a flush of F. -/
theorem Front.predBit_of_word {s e : State} {fl : Bool} (h : Front s e fl) {f : Fetched}
    (hF : e.slotF = some f) : e.predBit = s.predBit := by
  have hfl : fl = false := by
    cases fl with
    | false => rfl
    | true => cases h.slotF.symm.trans hF
  have hflush := h.flush_eq
  rw [h.predBit]
  cases hD : s.slotD with
  | none => rfl
  | some i =>
    rw [hfl, hD, Option.elim_some, eq_comm, Bool.or_eq_false_iff] at hflush
    simp [hflush.1]

theorem Front.predictsTaken_of_word {s e : State} {fl : Bool} (h : Front s e fl) {f : Fetched}
    (hF : e.slotF = some f) (i : Instr) : e.predictsTaken i = s.predictsTaken i := by
  simp only [State.predictsTaken, h.predOn_eq, h.predBit_of_word hF]

/-- A running step that does not flush and has a word in F hands this word to decode, with pc behind it. -/
theorem step_of_word {s : State} {f : Fetched} (hinv : Inv s) (hrun : RunsPipelined s) (hnf : NoFlush s)
    (hF : s.slotF = some f) : ∃ e fl t, step s = .next t ∧ Front s e fl ∧ BackReady e fl ∧ BackResult e fl t ∧
      e.slotF = some f ∧ e.pc = f.fpc + 4#32 := by
  obtain ⟨t, hstep, hres⟩ := step_result s hinv hrun
  cases hres with
  | lastWriteback _ _ hF' => cases hF'.symm.trans hF
  | through e fl t hfront hready hback =>
    have heF : e.slotF = some f := (hfront.slotF_of_noFlush hnf).trans hF
    have hpc := ((hinv.pipelined hrun.1 hrun.2).fetchAhead f hF).1
    exact ⟨e, fl, t, hstep, hfront, hready, hback, heF, (hfront.of_word f heF).2.trans hpc⟩

/-! ## Where fetching goes on -/

/-- Decode leaves its record in D with the fetch made at the pc it chose, or parked with that pc standing (R209,
R211). -/
def DecodedAt (s t : State) (r : Rec) (p : Word) : Prop :=
  (t.slotD = some r ∧ FetchedFrom s t p) ∨ (t.slotS = some r ∧ t.slotF = none ∧ t.pc = p)

/-- Of the ways through sub-steps 4 to 8 only the decode of a word, good or bad, has one in F (R209). -/
theorem BackResult.word_cases {e t : State} {fl : Bool} (h : BackResult e fl t) (he : BackReady e fl)
    {f : Fetched} (hF : e.slotF = some f) :
    (∃ i, decode f.word = .ok i ∧ DecodedAt e t (decodedRec i f.fpc e) (decodedPc i f.fpc e)) ∨
    ∃ c, Machine.decodeError f.word = some c ∧ t = (shiftWindow e).emptyF.raiseFatal c f.word := by
  have hS := he.slotS_of_word hF
  cases h with
  | decodeError f' c hF' hc => cases hF.symm.trans hF'; exact .inr ⟨c, hc, rfl⟩
  | parked f' i n tr hF' hd => cases hF.symm.trans hF'; exact .inl ⟨i, hd, .inr ⟨rfl, rfl, rfl⟩⟩
  | entered f' i tr hF' hd =>
    cases hF.symm.trans hF'
    exact .inl ⟨i, hd, .inl ⟨rfl, fetchedFrom_of_eq rfl rfl⟩⟩
  | waited _ _ hS' | promoted _ _ hS' => cases hS.symm.trans hS'
  | withheld _ _ hF' | fetched _ _ hF' => cases hF.symm.trans hF'
  | completed _ _ hd => cases ((State.drained_iff e).1 hd).1.symm.trans hF

theorem decodeError_of_ok {w : Word} {i : Instr} (hd : decode w = .ok i) : decodeError w = none := by
  simp [decodeError, hd]

/-- The prediction of the word in F, made with the bit as it stood before the step, and where it sends the fetch
(R281). -/
theorem step_decodes {s : State} {f : Fetched} {i : Instr} (hinv : Inv s) (hrun : RunsPipelined s)
    (hnf : NoFlush s) (hF : s.slotF = some f) (hd : decode f.word = .ok i) :
    ∃ t r, step s = .next t ∧ r.instr = i ∧ r.fpc = f.fpc ∧ r.predTaken = s.predictsTaken i ∧
      DecodedAt s t r (if s.predictsTaken i = true then f.fpc + i.imm else f.fpc + 4#32) := by
  obtain ⟨e, fl, t, hstep, hfront, hready, hback, heF, hpc⟩ := step_of_word hinv hrun hnf hF
  have hpred := hfront.predictsTaken_of_word heF i
  obtain ⟨i', hd', hat⟩ | ⟨c, hc, -⟩ := hback.word_cases hready heF
  case inr => cases (decodeError_of_ok hd).symm.trans hc
  cases hd.symm.trans hd'
  rw [decodedPc, hpred, hpc] at hat
  refine ⟨t, decodedRec i f.fpc e, hstep, rfl, rfl, hpred, ?_⟩
  simpa only [DecodedAt, FetchedFrom, hfront.ifetch_eq] using hat

/-- Settles O41: the instruction is predicted taken. -/
theorem takenPredictionRedirectsAtDecode : Obligations.TakenPredictionRedirectsAtDecode := by
  intro s f i hinv hrun hnf hF hd htaken
  obtain ⟨t, r, hstep, hi, hfpc, hpred, hat⟩ := step_decodes hinv hrun hnf hF hd
  have hyes := (s.predictsTaken_iff i).2 htaken
  rw [if_pos hyes] at hat
  exact ⟨t, r, hstep, hi, hfpc, hpred.trans hyes, hat⟩

/-- Settles O42: the instruction is not predicted taken. -/
theorem notTakenPredictionFetchesOn : Obligations.NotTakenPredictionFetchesOn := by
  intro s f i hinv hrun hnf hF hd hnot
  obtain ⟨t, r, hstep, hi, hfpc, hpred, hat⟩ := step_decodes hinv hrun hnf hF hd
  have hno : ¬s.predictsTaken i = true := fun h => hnot ((s.predictsTaken_iff i).1 h)
  rw [if_neg hno] at hat
  exact ⟨t, r, hstep, hi, hfpc, hpred.trans (by simpa using hno), hat⟩

/-! ## A word that does not decode -/

/-- The fatal code of a refusal (R307). -/
theorem decodeError_num {w : Word} {c : ErrCode} (hc : decodeError w = some c) :
    (decode w = .unknownOpcode → c.num = 1#8) ∧ (decode w = .unknownFunct → c.num = 2#8) := by
  constructor <;>
  · intro hd
    simp only [decodeError, hd, Option.some.injEq] at hc
    subst hc
    rfl

/-- Settles O48: the error is raised in the state that sub-steps 1 to 3 leave. -/
theorem pipelinedDecodeErrorState : Obligations.PipelinedDecodeErrorState := by
  intro s f hinv hrun hnf hF hbad
  obtain ⟨e, fl, t, hstep, hfront, hready, hback, heF, hpc⟩ := step_of_word hinv hrun hnf hF
  obtain ⟨i, hd, -⟩ | ⟨c, hc, rfl⟩ := hback.word_cases hready heF
  · exact absurd hd (hbad i)
  · have hdone : e.done = false := hfront.done.trans (s.halted_eq_false_iff.1 hrun.1).1
    have hX : e.slotX.map Rec.instr = s.slotD.map Rec.instr := by
      rw [hfront.slotX]
      cases s.slotD <;> simp
    have hwin : e.win.shift = ⟨s.win.w1, s.win.w2, s.win.w3, s.win.w4, none⟩ := by rw [hfront.win]; rfl
    obtain ⟨hopcode, hfunct⟩ := decodeError_num hc
    exact ⟨_, hstep, rfl, hdone, rfl, hopcode, hfunct, rfl, hready.emptyD, hfront.slotW, hX, hfront.seqCtr, hpc,
      hwin, hfront.regs⟩

end Sys2Proof.Machine
end

section
/-! PROOFS. The recoverable errors of a pipelined step in the terms of the claims: X's range error, then D's division by
zero, and the error registers after them (R301, R303, R304, R309). -/

namespace Sys2Proof.Machine

open Sys2Proof.Safety Sys2Proof.Claims

/-! ## The range error -/

theorem accessRegion_eq_none_iff {p : Params} {a : Word} {n : Nat} (hn : 0 < n) :
    Params.accessRegion p a n = none ↔ ¬InRange p a n := by
  refine ⟨fun h ⟨g, hg⟩ => ?_, accessRegion_of_not_inRange p a n⟩
  rw [accessRegion_of_inWindow hn hg] at h
  cases h

theorem loadWidth_pos {i : Instr} {n : Nat} (h : loadWidth i = some n) : 0 < n := by
  cases i
  case lb | lh | lw | ld => cases h; decide
  all_goals cases h

theorem storeWidth_pos {i : Instr} {n : Nat} (h : storeWidth i = some n) : 0 < n := by
  cases i
  case sb | sh | sw | sd => cases h; decide
  all_goals cases h

theorem loadWidth_of_store {i : Instr} {n : Nat} (h : storeWidth i = some n) : loadWidth i = none := by
  cases i
  case sb | sh | sw | sd => rfl
  all_goals cases h

theorem accessErrorsOfX_of_rangeError {s : State} {c : ErrCode} (h : RangeError s c) :
    accessErrorsOfX s = [(c, s.bufZ)] := by
  obtain ⟨x, n, hX, hout, ⟨rfl, hw⟩ | ⟨rfl, hw⟩⟩ := h <;> rw [accessErrorsOfX, hX, Option.elim_some]
  · simp [accessErrors, hw, accessRegion_of_not_inRange _ _ _ hout]
  · simp [accessErrors, hw, loadWidth_of_store hw, accessRegion_of_not_inRange _ _ _ hout]

theorem accessErrorsOfX_of_inRange {s : State} (h : ∀ c, ¬RangeError s c) : accessErrorsOfX s = [] := by
  unfold accessErrorsOfX
  cases hX : s.slotX with
  | none => rfl
  | some x =>
    rw [Option.elim_some]
    cases hl : loadWidth x.instr with
    | some n =>
      have hin : Params.accessRegion s.params s.bufZ n ≠ none := fun hnone =>
        h _ ⟨x, n, hX, (accessRegion_eq_none_iff (loadWidth_pos hl)).1 hnone, .inl ⟨rfl, hl⟩⟩
      simp [accessErrors, hl, hin]
    | none =>
      cases hst : storeWidth x.instr with
      | some n =>
        have hin : Params.accessRegion s.params s.bufZ n ≠ none := fun hnone =>
          h _ ⟨x, n, hX, (accessRegion_eq_none_iff (storeWidth_pos hst)).1 hnone, .inr ⟨rfl, hst⟩⟩
        simp [accessErrors, hl, hst, hin]
      | none => simp [accessErrors, hl, hst]

/-! ## The division by zero -/

theorem divideErrorsOfD_of_divideError {s : State} {a : Word} (h : DivideError s a) :
    divideErrorsOfD s = [(.divZero, a)] := by
  obtain ⟨d, rd, rs1, rs2, hD, rfl, hB, hi⟩ := h
  rw [divideErrorsOfD, hD, Option.elim_some]
  obtain hi | hi := hi <;> simp [divideErrors, hi, hB]

/-- Only a div or rem whose divisor is 0 logs an error in its execute stage (R304). -/
theorem divideErrors_cases (i : Instr) (a b : Word) : divideErrors i a b = [] ∨
    b = 0#32 ∧ ∃ rd rs1 rs2, i = .div rd rs1 rs2 ∨ i = .rem rd rs1 rs2 := by
  cases i
  case div rd rs1 rs2 =>
    by_cases hb : b = 0#32
    · exact .inr ⟨hb, rd, rs1, rs2, .inl rfl⟩
    · exact .inl (if_neg hb)
  case rem rd rs1 rs2 =>
    by_cases hb : b = 0#32
    · exact .inr ⟨hb, rd, rs1, rs2, .inr rfl⟩
    · exact .inl (if_neg hb)
  all_goals exact .inl rfl

theorem divideErrorsOfD_of_noError {s : State} (h : ∀ a, ¬DivideError s a) : divideErrorsOfD s = [] := by
  unfold divideErrorsOfD
  cases hD : s.slotD with
  | none => rfl
  | some d =>
    obtain hnil | ⟨hB, rd, rs1, rs2, hi⟩ := divideErrors_cases d.instr d.fpc s.bufB
    · exact hnil
    · exact absurd ⟨d, rd, rs1, rs2, hD, rfl, hB, hi⟩ (h d.fpc)

/-! ## The obligations -/

theorem errNumber_eq_num (c : ErrCode) : errNumber c = c.num := by
  cases c <;> rfl

/-- Settles O52: the trace names X's error and then D's, and the error registers have taken both in this order. -/
theorem pipelinedStepLogsItsErrors : Obligations.PipelinedStepLogsItsErrors := by
  intro s t ⟨hs, hp⟩ h
  rw [step_pipelined s hs hp] at h
  have hev := errorsOf_pipelinedStep h
  have hregs := errorRegs_pipelinedStep h
  rw [hev] at hregs
  refine ⟨_, _, hev, fun c => accessErrorsOfX_of_rangeError, accessErrorsOfX_of_inRange,
    fun a => divideErrorsOfD_of_divideError, divideErrorsOfD_of_noError, fun hnil => ?_, fun c info hlast => ?_⟩
  · rw [hnil] at hregs
    simpa [State.errorRegs, ErrorsKept] using hregs
  · rw [foldl_logged_of_getLast hlast] at hregs
    simpa [State.errorRegs, Logged, errNumber_eq_num] using hregs

/-- Settles O49: of the errors of the step both are there, X's first and D's last. -/
theorem olderErrorIsLoggedFirst : Obligations.OlderErrorIsLoggedFirst := by
  intro s t c a hrun h hrange hdiv
  obtain ⟨ms, es, hev, hms, -, hes, -, -, hlast⟩ := pipelinedStepLogsItsErrors s t hrun h
  rw [hms c hrange, hes a hdiv] at hev hlast
  exact ⟨hev, hlast .divZero a rfl⟩

end Sys2Proof.Machine
end

section
/-! PROOFS. Decoding of fixed words (95_test_vectors.md part 2.1). -/

namespace Sys2Proof

/-- Settles O1: the decoder runs on each word. -/
theorem decodesWordsWrittenFromTheEncodings : Obligations.DecodesWordsWrittenFromTheEncodings := by
  unfold Obligations.DecodesWordsWrittenFromTheEncodings
  decide

end Sys2Proof
end
